-- ==== Sys2Proof/Word.lean ====
section
/-! DEFINITION. The word types of PKC: bytes of MEM, and the 64-bit registers and command words
(00_scope.md R6 XLEN = 64, R9). -/

namespace Sys2Proof

/-- A byte is 8 bits (00_scope.md R9). -/
abbrev Byte := BitVec 8

/-- The contents of a host-window register, and a command word (R22 to R28, R80). -/
abbrev Word := BitVec 64

end Sys2Proof
end

