-- ==== Sys2Proof/Config.lean ====
section
/-! DEFINITION. What an instance of PKC fixes (00_scope.md R6) and the one value the spec leaves
open (70_reset_and_hazards.md R273). -/

namespace Sys2Proof

/-- The two allowed values of IPV4_FLAGS_WIDTH (R6; 90_conflicts.md C2). -/
inductive FlagsWidth where
  | two
  | three
  deriving DecidableEq, Repr

/-- The width FW of the IPv4 `flags` field. -/
def FlagsWidth.bits : FlagsWidth → Nat
  | .two => 2
  | .three => 3

/-- MATCH_TAG_MISMATCH (R6, R207): what a predicate meeting a header of another protocol gives. -/
inductive TagMismatch where
  | noMatch
  | unwrap
  deriving DecidableEq, Repr

/-- The parameters of an instance (R6). They are not state of PKC (R21): State carries them because
a step takes nothing but a state, and no step writes them. Log entry 1. -/
structure Config where
  /-- NBF, the number of BitField registers. -/
  nbf : Nat
  /-- NH, the number of header registers. -/
  nh : Nat
  /-- NQ, the number of predicate registers. -/
  nq : Nat
  /-- MEM_SIZE, the bytes of MEM. -/
  memSize : Nat
  /-- FB_CAP_BITS, the capacity of the packer FrameBuffer. -/
  fbCapBits : Nat
  /-- IPV4_FLAGS_WIDTH. -/
  flagsWidth : FlagsWidth
  /-- LEGACY_EMPTY_BUILD. -/
  legacyEmptyBuild : Bool
  /-- MATCH_TAG_MISMATCH. -/
  tagMismatch : TagMismatch
  deriving DecidableEq, Repr

/-- The defaults of the table of R6. -/
def Config.default : Config where
  nbf := 8
  nh := 4
  nq := 4
  memSize := 2048
  fbCapBits := 16384
  flagsWidth := .three
  legacyEmptyBuild := false
  tagMismatch := .noMatch

/-- The ranges of the table of R6. -/
abbrev Config.valid (c : Config) : Prop :=
  (1 ≤ c.nbf ∧ c.nbf ≤ 16) ∧ (2 ≤ c.nh ∧ c.nh ≤ 16) ∧ (1 ≤ c.nq ∧ c.nq ≤ 16) ∧
  (60 ≤ c.memSize ∧ c.memSize ≤ 65536) ∧ (64 ≤ c.fbCapBits ∧ c.fbCapBits ≤ 2 ^ 20)

/-- FREE VALUE. The byte that the `draw`-th memory read finds at an address of MEM that nothing has
written since the hardware reset: "an arbitrary value, chosen freely at each read (a draw under no
law)" (R273). It has no body, so nothing can be proved of it. Log entry 3. -/
opaque Config.freeByte (draw addr : Nat) : Byte

end Sys2Proof
end

