-- ==== Sys2Proof/Syntax.lean ====
section
/-! DEFINITION. The commands of PKC: one constructor per row of spec/opcode_table.json
(30_encoding.md R84). An operand is a field of the command word as it stands (R81, R82). -/

namespace Sys2Proof

/-- The A and B fields: an unsigned 4-bit register number (R81). -/
abbrev RegIdx := Fin 16

/-- The IMM field: an unsigned 8-bit integer, used as is (R82): a BitField width, a tag code, a
field id or a layer number. -/
abbrev Imm := Fin 256

inductive Instr where
  /-- R220 -/
  | nop
  /-- R101 -/
  | bfNew (bd : RegIdx) (width : Imm)
  /-- R102 -/
  | bfBits (bs : RegIdx)
  /-- R103 -/
  | bfVal (bs : RegIdx)
  /-- R104 -/
  | bfEq (ba bb : RegIdx)
  /-- R120 -/
  | fbClr
  /-- R121 -/
  | fbAppb
  /-- R122 -/
  | fbAppf (bs : RegIdx)
  /-- R123 -/
  | fbSlb
  /-- R124 -/
  | fbSly
  /-- R125 -/
  | fbTob
  /-- R140 -/
  | hdrInit (hd : RegIdx) (tag : Imm)
  /-- R141 -/
  | hdrSet (hd : RegIdx) (field : Imm)
  /-- R142 -/
  | hdrGet (hs : RegIdx) (field : Imm)
  /-- R143 -/
  | hdrTag (hs : RegIdx)
  /-- R144 -/
  | hdrCopy (hd hs : RegIdx)
  /-- R145 -/
  | hdrUnwrap (hs : RegIdx) (tag : Imm)
  /-- R162 -/
  | ethCreate (hs : RegIdx)
  /-- R163 -/
  | ethParse (hd : RegIdx)
  /-- R164 -/
  | arpCreate (hs : RegIdx)
  /-- R165 -/
  | arpParse (hd : RegIdx)
  /-- R166 -/
  | ip4Create (hs : RegIdx)
  /-- R167 -/
  | ip4Parse (hd : RegIdx)
  /-- R180 -/
  | faNew
  /-- R181 -/
  | faSet (hs : RegIdx)
  /-- R182 -/
  | faGet (hd : RegIdx) (layer : Imm)
  /-- R184 -/
  | faParse
  /-- R185 -/
  | faBuild
  /-- R186 -/
  | faRead
  /-- R201 -/
  | qInit (qd : RegIdx) (tag : Imm)
  /-- R202 -/
  | qSet (qd : RegIdx) (field : Imm)
  /-- R203 -/
  | qAny (qd : RegIdx) (field : Imm)
  /-- R204 -/
  | qMatch (qs hs : RegIdx)
  /-- R205 -/
  | qMatchfa (qs : RegIdx)
  deriving DecidableEq, Repr

end Sys2Proof
end

