-- ==== Sys2Proof/WellFormed.lean ====
section
/-! DEFINITION. The value checks on a command's used fields: checks (4) and (5) of 30_encoding.md
R83, which the match and mask of a row do not express (R85). A command that fails one is illegal
(R86); every meaning makes them before anything else. -/

namespace Sys2Proof

/-- The legal set of a tag IMM: 1 Ethernet, 2 Arp, 3 IPv4 (R84; 10_state.md R32). -/
def legalTagImm (imm : Imm) : Bool := imm.val == 1 || imm.val == 2 || imm.val == 3

/-- The legal set of a layer IMM: 2 and 3 (R84). -/
def legalLayerImm (imm : Imm) : Bool := imm.val == 2 || imm.val == 3

/-- Check (4) of R83: every used A or B index is below the size of the file it indexes. -/
def Instr.indicesLegal (cfg : Config) : Instr → Bool
  | .nop | .fbClr | .fbAppb | .fbSlb | .fbSly | .fbTob
  | .faNew | .faParse | .faBuild | .faRead => true
  | .bfNew r _ | .bfBits r | .bfVal r | .fbAppf r => decide (r.val < cfg.nbf)
  | .bfEq ra rb => decide (ra.val < cfg.nbf) && decide (rb.val < cfg.nbf)
  | .hdrInit r _ | .hdrSet r _ | .hdrGet r _ | .hdrTag r | .hdrUnwrap r _
  | .ethCreate r | .ethParse r | .arpCreate r | .arpParse r | .ip4Create r | .ip4Parse r
  | .faSet r | .faGet r _ => decide (r.val < cfg.nh)
  | .hdrCopy rd rs => decide (rd.val < cfg.nh) && decide (rs.val < cfg.nh)
  | .qInit r _ | .qSet r _ | .qAny r _ | .qMatchfa r => decide (r.val < cfg.nq)
  | .qMatch rq rh => decide (rq.val < cfg.nq) && decide (rh.val < cfg.nh)

/-- Check (5) of R83: IMM is in the opcode's legal set of R84. The sets 0..255 (widths, field
ids) hold every IMM. -/
def Instr.immLegal : Instr → Bool
  | .hdrInit _ tag | .hdrUnwrap _ tag | .qInit _ tag => legalTagImm tag
  | .faGet _ layer => legalLayerImm layer
  | .nop | .bfNew _ _ | .bfBits _ | .bfVal _ | .bfEq _ _
  | .fbClr | .fbAppb | .fbAppf _ | .fbSlb | .fbSly | .fbTob
  | .hdrSet _ _ | .hdrGet _ _ | .hdrTag _ | .hdrCopy _ _
  | .ethCreate _ | .ethParse _ | .arpCreate _ | .arpParse _ | .ip4Create _ | .ip4Parse _
  | .faNew | .faSet _ | .faParse | .faBuild | .faRead
  | .qSet _ _ | .qAny _ _ | .qMatch _ _ | .qMatchfa _ => true

/-- The instruction passes checks (4) and (5) of R83 on an instance with these parameters. -/
def Instr.wellFormed (cfg : Config) (i : Instr) : Bool :=
  i.indicesLegal cfg && i.immLegal

end Sys2Proof
end

