-- ==== Sys2Proof/Decode.lean ====
section
/-! DEFINITION. The command word (30_encoding.md R80), its decoder (checks (1) to (3) of R83), the
encoder, and the opcode table with its match and mask words (R84, R85). -/

namespace Sys2Proof

/-- `v[hi:lo]` of 00_scope.md R7. -/
def bitsHiLo (v hi lo : Nat) : Nat := v / 2 ^ lo % 2 ^ (hi + 1 - lo)

theorem bitsHiLo_lt (v hi lo : Nat) : bitsHiLo v hi lo < 2 ^ (hi + 1 - lo) :=
  Nat.mod_lt _ (Nat.two_pow_pos _)

/-- The fields of a command word (R80). -/
structure CommandFields where
  opc : Nat
  a : RegIdx
  b : RegIdx
  imm : Imm
  rsv : Nat
  deriving DecidableEq, Repr

/-- Cut a command word into its fields (R80). -/
def commandFields (w : Word) : CommandFields where
  opc := bitsHiLo w.toNat 7 0
  a := ⟨bitsHiLo w.toNat 11 8, bitsHiLo_lt w.toNat 11 8⟩
  b := ⟨bitsHiLo w.toNat 15 12, bitsHiLo_lt w.toNat 15 12⟩
  imm := ⟨bitsHiLo w.toNat 23 16, bitsHiLo_lt w.toNat 23 16⟩
  rsv := bitsHiLo w.toNat 63 24

/-- Why a command word has no instruction: checks (1), (2) and (3) of R83. -/
inductive DecodeError where
  /-- Check (1): RSV is not 0. -/
  | reservedBits
  /-- Check (2): OPC is not an opcode of R84. -/
  | unknownOpcode
  /-- Check (3): a field the opcode does not use is not 0. -/
  | unusedField
  deriving DecidableEq, Repr

/-- A form that uses no field. -/
def CommandFields.formNone (f : CommandFields) (i : Instr) : Except DecodeError Instr :=
  if f.a.val = 0 ∧ f.b.val = 0 ∧ f.imm.val = 0 then .ok i else .error .unusedField

/-- A form that uses A. -/
def CommandFields.formA (f : CommandFields) (mk : RegIdx → Instr) : Except DecodeError Instr :=
  if f.b.val = 0 ∧ f.imm.val = 0 then .ok (mk f.a) else .error .unusedField

/-- A form that uses A and B. -/
def CommandFields.formAB (f : CommandFields) (mk : RegIdx → RegIdx → Instr) :
    Except DecodeError Instr :=
  if f.imm.val = 0 then .ok (mk f.a f.b) else .error .unusedField

/-- A form that uses A and IMM. -/
def CommandFields.formAImm (f : CommandFields) (mk : RegIdx → Imm → Instr) :
    Except DecodeError Instr :=
  if f.b.val = 0 then .ok (mk f.a f.imm) else .error .unusedField

/-- The opcode map (R84): checks (2) and (3) of R83. -/
def decodeFields (f : CommandFields) : Except DecodeError Instr :=
  match f.opc with
  | 0x00 => f.formNone .nop
  | 0x10 => f.formAImm .bfNew
  | 0x11 => f.formA .bfBits
  | 0x12 => f.formA .bfVal
  | 0x13 => f.formAB .bfEq
  | 0x20 => f.formNone .fbClr
  | 0x21 => f.formNone .fbAppb
  | 0x22 => f.formA .fbAppf
  | 0x23 => f.formNone .fbSlb
  | 0x24 => f.formNone .fbSly
  | 0x25 => f.formNone .fbTob
  | 0x30 => f.formAImm .hdrInit
  | 0x31 => f.formAImm .hdrSet
  | 0x32 => f.formAImm .hdrGet
  | 0x33 => f.formA .hdrTag
  | 0x34 => f.formAB .hdrCopy
  | 0x35 => f.formAImm .hdrUnwrap
  | 0x40 => f.formA .ethCreate
  | 0x41 => f.formA .ethParse
  | 0x42 => f.formA .arpCreate
  | 0x43 => f.formA .arpParse
  | 0x44 => f.formA .ip4Create
  | 0x45 => f.formA .ip4Parse
  | 0x50 => f.formNone .faNew
  | 0x51 => f.formA .faSet
  | 0x52 => f.formAImm .faGet
  | 0x53 => f.formNone .faParse
  | 0x54 => f.formNone .faBuild
  | 0x55 => f.formNone .faRead
  | 0x60 => f.formAImm .qInit
  | 0x61 => f.formAImm .qSet
  | 0x62 => f.formAImm .qAny
  | 0x63 => f.formAB .qMatch
  | 0x64 => f.formA .qMatchfa
  | _ => .error .unknownOpcode

/-- Checks (1), (2), (3) of R83 in order, on the fields of a word. -/
def decodeChecked (f : CommandFields) : Except DecodeError Instr :=
  if f.rsv = 0 then decodeFields f else .error .reservedBits

/-- The decoder. What it accepts is what the match and mask of a row select (R85); checks (4) and
(5) of R83 are `Instr.wellFormed`. -/
def decode (w : Word) : Except DecodeError Instr := decodeChecked (commandFields w)

/-- A command word put together from its fields (R80). -/
def packFields (opc : Nat) (a b : RegIdx) (imm : Imm) : Word :=
  BitVec.ofNat 64 (opc + 2 ^ 8 * a.val + 2 ^ 12 * b.val + 2 ^ 16 * imm.val)

/-- The word of an instruction, written from R80 and R84. -/
def encode : Instr → Word
  | .nop => packFields 0x00 0 0 0
  | .bfNew bd width => packFields 0x10 bd 0 width
  | .bfBits bs => packFields 0x11 bs 0 0
  | .bfVal bs => packFields 0x12 bs 0 0
  | .bfEq ba bb => packFields 0x13 ba bb 0
  | .fbClr => packFields 0x20 0 0 0
  | .fbAppb => packFields 0x21 0 0 0
  | .fbAppf bs => packFields 0x22 bs 0 0
  | .fbSlb => packFields 0x23 0 0 0
  | .fbSly => packFields 0x24 0 0 0
  | .fbTob => packFields 0x25 0 0 0
  | .hdrInit hd tag => packFields 0x30 hd 0 tag
  | .hdrSet hd field => packFields 0x31 hd 0 field
  | .hdrGet hs field => packFields 0x32 hs 0 field
  | .hdrTag hs => packFields 0x33 hs 0 0
  | .hdrCopy hd hs => packFields 0x34 hd hs 0
  | .hdrUnwrap hs tag => packFields 0x35 hs 0 tag
  | .ethCreate hs => packFields 0x40 hs 0 0
  | .ethParse hd => packFields 0x41 hd 0 0
  | .arpCreate hs => packFields 0x42 hs 0 0
  | .arpParse hd => packFields 0x43 hd 0 0
  | .ip4Create hs => packFields 0x44 hs 0 0
  | .ip4Parse hd => packFields 0x45 hd 0 0
  | .faNew => packFields 0x50 0 0 0
  | .faSet hs => packFields 0x51 hs 0 0
  | .faGet hd layer => packFields 0x52 hd 0 layer
  | .faParse => packFields 0x53 0 0 0
  | .faBuild => packFields 0x54 0 0 0
  | .faRead => packFields 0x55 0 0 0
  | .qInit qd tag => packFields 0x60 qd 0 tag
  | .qSet qd field => packFields 0x61 qd 0 field
  | .qAny qd field => packFields 0x62 qd 0 field
  | .qMatch qs hs => packFields 0x63 qs hs 0
  | .qMatchfa qs => packFields 0x64 qs 0 0

/-- Which register file an index field names (R81, R84). -/
inductive RegFile where
  | bf
  | h
  | q
  deriving DecidableEq, Repr

/-- The number of registers of a file (00_scope.md R6). -/
def RegFile.size (cfg : Config) : RegFile → Nat
  | .bf => cfg.nbf
  | .h => cfg.nh
  | .q => cfg.nq

/-- The legal sets of IMM that R84 names. -/
inductive ImmSet where
  | any
  | tag
  | layer
  deriving DecidableEq, Repr

/-- Membership in a legal set of R84. -/
abbrev ImmSet.holds : ImmSet → Nat → Prop
  | .any, v => v ≤ 255
  | .tag, v => v = 1 ∨ v = 2 ∨ v = 3
  | .layer, v => v = 2 ∨ v = 3

/-- A row of the opcode map (R84): `none` is a dash. -/
structure OpcodeRow where
  mnemonic : String
  opc : Nat
  a : Option RegFile
  b : Option RegFile
  imm : Option ImmSet
  deriving DecidableEq, Repr

/-- The opcode map as R84 lists it. -/
def opcodeTable : List OpcodeRow :=
  [⟨"NOP", 0x00, none, none, none⟩,
   ⟨"BF.NEW", 0x10, some .bf, none, some .any⟩,
   ⟨"BF.BITS", 0x11, some .bf, none, none⟩,
   ⟨"BF.VAL", 0x12, some .bf, none, none⟩,
   ⟨"BF.EQ", 0x13, some .bf, some .bf, none⟩,
   ⟨"FB.CLR", 0x20, none, none, none⟩,
   ⟨"FB.APPB", 0x21, none, none, none⟩,
   ⟨"FB.APPF", 0x22, some .bf, none, none⟩,
   ⟨"FB.SLB", 0x23, none, none, none⟩,
   ⟨"FB.SLY", 0x24, none, none, none⟩,
   ⟨"FB.TOB", 0x25, none, none, none⟩] ++
  [⟨"HDR.INIT", 0x30, some .h, none, some .tag⟩,
   ⟨"HDR.SET", 0x31, some .h, none, some .any⟩,
   ⟨"HDR.GET", 0x32, some .h, none, some .any⟩,
   ⟨"HDR.TAG", 0x33, some .h, none, none⟩,
   ⟨"HDR.COPY", 0x34, some .h, some .h, none⟩,
   ⟨"HDR.UNWRAP", 0x35, some .h, none, some .tag⟩,
   ⟨"ETH.CREATE", 0x40, some .h, none, none⟩,
   ⟨"ETH.PARSE", 0x41, some .h, none, none⟩,
   ⟨"ARP.CREATE", 0x42, some .h, none, none⟩,
   ⟨"ARP.PARSE", 0x43, some .h, none, none⟩,
   ⟨"IP4.CREATE", 0x44, some .h, none, none⟩,
   ⟨"IP4.PARSE", 0x45, some .h, none, none⟩] ++
  [⟨"FA.NEW", 0x50, none, none, none⟩,
   ⟨"FA.SET", 0x51, some .h, none, none⟩,
   ⟨"FA.GET", 0x52, some .h, none, some .layer⟩,
   ⟨"FA.PARSE", 0x53, none, none, none⟩,
   ⟨"FA.BUILD", 0x54, none, none, none⟩,
   ⟨"FA.READ", 0x55, none, none, none⟩,
   ⟨"Q.INIT", 0x60, some .q, none, some .tag⟩,
   ⟨"Q.SET", 0x61, some .q, none, some .any⟩,
   ⟨"Q.ANY", 0x62, some .q, none, some .any⟩,
   ⟨"Q.MATCH", 0x63, some .q, some .h, none⟩,
   ⟨"Q.MATCHFA", 0x64, some .q, none, none⟩]

/-- The match word of a row (R85): the OPC value. -/
def OpcodeRow.matchWord (r : OpcodeRow) : Word := BitVec.ofNat 64 r.opc

/-- The mask word of a row (R85): OPC, RSV and every unused field. -/
def OpcodeRow.maskWord (r : OpcodeRow) : Word :=
  0xFFFFFFFFFF0000FF#64 |||
  (if r.a.isNone then 0xF00#64 else 0#64) |||
  (if r.b.isNone then 0xF000#64 else 0#64) |||
  (if r.imm.isNone then 0xFF0000#64 else 0#64)

/-- The mnemonic of an instruction, as R84 spells it. -/
def Instr.mnemonic : Instr → String
  | .nop => "NOP"
  | .bfNew _ _ => "BF.NEW"
  | .bfBits _ => "BF.BITS"
  | .bfVal _ => "BF.VAL"
  | .bfEq _ _ => "BF.EQ"
  | .fbClr => "FB.CLR"
  | .fbAppb => "FB.APPB"
  | .fbAppf _ => "FB.APPF"
  | .fbSlb => "FB.SLB"
  | .fbSly => "FB.SLY"
  | .fbTob => "FB.TOB"
  | .hdrInit _ _ => "HDR.INIT"
  | .hdrSet _ _ => "HDR.SET"
  | .hdrGet _ _ => "HDR.GET"
  | .hdrTag _ => "HDR.TAG"
  | .hdrCopy _ _ => "HDR.COPY"
  | .hdrUnwrap _ _ => "HDR.UNWRAP"
  | .ethCreate _ => "ETH.CREATE"
  | .ethParse _ => "ETH.PARSE"
  | .arpCreate _ => "ARP.CREATE"
  | .arpParse _ => "ARP.PARSE"
  | .ip4Create _ => "IP4.CREATE"
  | .ip4Parse _ => "IP4.PARSE"
  | .faNew => "FA.NEW"
  | .faSet _ => "FA.SET"
  | .faGet _ _ => "FA.GET"
  | .faParse => "FA.PARSE"
  | .faBuild => "FA.BUILD"
  | .faRead => "FA.READ"
  | .qInit _ _ => "Q.INIT"
  | .qSet _ _ => "Q.SET"
  | .qAny _ _ => "Q.ANY"
  | .qMatch _ _ => "Q.MATCH"
  | .qMatchfa _ => "Q.MATCHFA"

/-- The instruction the decoder reads from a word numbered as spec/opcode_table.json numbers it:
PKC has one 64-bit format (R80), so bits at and above `nbits` are 0. -/
def decodeTableWord (nbits w : Nat) : Option Instr :=
  (decode (BitVec.ofNat 64 (w % 2 ^ nbits))).toOption

end Sys2Proof
end

