-- ==== Sys2Proof/Machine/Bits.lean ====
section
/-! DEFINITION. Bit sequences and bytes (00_scope.md R8, R9): position 0 is the first bit on the
wire, and within a byte the first bit is the most significant. -/

namespace Sys2Proof.Machine

/-- `bitsOf(v, w)`: the w bits of v, most significant first (R8). -/
def bitsOf (v : Nat) : Nat → List Bool
  | 0 => []
  | w + 1 => v.testBit w :: bitsOf v w

/-- `valOf(S)`: the unsigned integer that S spells, most significant bit first (R8). -/
def valOf : List Bool → Nat
  | [] => 0
  | b :: bs => b.toNat * 2 ^ bs.length + valOf bs

/-- `slice(S, a, b)`: positions a, ..., b-1 (R8). -/
def sliceBits (S : List Bool) (a b : Nat) : List Bool := (S.drop a).take (b - a)

/-- `zeros(n)` (R8). -/
def zeroBits (n : Nat) : List Bool := List.replicate n false

/-- `bytesToBits(B)` (R9). -/
def bytesToBits (B : List Byte) : List Bool := B.flatMap fun b => bitsOf b.toNat 8

/-- `bitsToBytes(S)` (R9): byte i is `valOf(slice(S, 8i, 8i+8))`. Used on whole bytes only. -/
def bitsToBytes (S : List Bool) : List Byte :=
  (List.range (S.length / 8)).map fun i => BitVec.ofNat 8 (valOf (sliceBits S (8 * i) (8 * i + 8)))

end Sys2Proof.Machine
end

