-- ==== Sys2Proof/Machine/State.lean ====
section
/-! DEFINITION. The state of PKC (10_state.md R21 to R42), how a step can end, and the state after
a hardware reset (70_reset_and_hazards.md R270). -/

namespace Sys2Proof.Machine

/-- PKC never stops with a fault: "PKC has no command or input that stops the engine" (R246), and an
error is a status code, not a trap (R249). Nobody raises one. Log entry 16. -/
inductive Fault where
  deriving DecidableEq, Repr

/-- Why the model has no transition. -/
inductive Refusal where
  /-- An instruction without a meaning in this model: no arm of `exec` raises it. Safe. -/
  | notModelled (mnemonic : String)
  /-- Raised by the host port for an access that is not 64 bits wide at a register or 8 bits wide
  in the MEM window: "a model refuses it" (R68). Safe. -/
  | hostAccessWidth
  /-- Raised by the host port for an access inside a register but not at its offset (R68). Safe. -/
  | hostUnalignedOffset
  /-- Raised by the host port for a reserved offset of R67: "a model refuses it" (R69). Safe. -/
  | hostReservedOffset
  /-- Raised by the host port for an offset at or beyond 0x1000 + MEM_SIZE (R69). Safe. -/
  | hostUnmappedOffset
  deriving DecidableEq, Repr

/-- The contents of a non-Empty BitField register (R29). -/
structure BitField where
  width : Nat
  value : Nat
  deriving DecidableEq, Repr

/-- The variants a ProtocolUnion of PKC can hold (R31, R32). -/
inductive Tag where
  | ethernet
  | arp
  | ipv4
  deriving DecidableEq, Repr

/-- A header value: its tag and its field values in layout order (R31, R33 to R35). -/
structure Header where
  tag : Tag
  fields : List Nat
  deriving DecidableEq, Repr

/-- A predicate: a tag and one entry per field, `none` for a wildcard (R37). -/
structure Predicate where
  tag : Tag
  fields : List (Option Nat)
  deriving DecidableEq, Repr

/-- MEM as the bytes that were written since the hardware reset (R42, R273), by rising address.
An unlisted address is unwritten. -/
abbrev Memory := List Host.Cell

/-- The width of a host access (R68). -/
inductive AccessSize where
  | b8
  | b16
  | b32
  | b64
  deriving DecidableEq, Repr

/-- What the host can do to PKC (70_reset_and_hazards.md R276). Offsets count from the start of the
host window (20_memory.md R67); the data of an 8-bit write is in the low 8 bits. -/
inductive HostAccess where
  | read (size : AccessSize) (offset : Nat)
  | write (size : AccessSize) (offset : Nat) (data : Word)
  | hardwareReset
  deriving DecidableEq, Repr

/-- The state record (R21). CTRL stores nothing (R26), FB_LEN and FA_LEN are the lengths of `fb` and
`faBuf` (R27, R28). The last four fields are the model's own (log entries 1, 3, 4, 5). -/
structure State where
  /-- R22 -/
  arg0 : Word
  arg1 : Word
  arg2 : Word
  arg3 : Word
  /-- R23 -/
  res0 : Word
  res1 : Word
  /-- R24 -/
  status : Word
  /-- R25 -/
  cmd : Word
  /-- R29: BF, `none` for Empty. -/
  bf : List (Option BitField)
  /-- R31: H, `none` for Empty. -/
  h : List (Option Header)
  /-- R37: Q, `none` for Empty. -/
  q : List (Option Predicate)
  /-- R38: FB, position 0 first. -/
  fb : List Bool
  /-- R39: `none` for absent. -/
  l2 : Option Header
  l3 : Option Header
  /-- R40: FA_BUF. -/
  faBuf : List Byte
  /-- R42 -/
  mem : Memory
  /-- The parameters of the chip (R6); no step writes them. -/
  cfg : Config
  /-- How many memory reads there have been: selects the free value of an unwritten byte (R273). -/
  draws : Nat
  /-- The host accesses still to come, in program order (R73). -/
  pending : List HostAccess
  /-- The value the host last read (R89). -/
  rdata : Word
  deriving DecidableEq, Repr

/-- The state right after a hardware reset of a PKC with these parameters (R270): MEM unwritten
(R273), no access pending. -/
def State.resetWith (cfg : Config) : State where
  arg0 := 0
  arg1 := 0
  arg2 := 0
  arg3 := 0
  res0 := 0
  res1 := 0
  status := 0
  cmd := 0
  bf := List.replicate cfg.nbf none
  h := List.replicate cfg.nh none
  q := List.replicate cfg.nq none
  fb := []
  l2 := none
  l3 := none
  faBuf := []
  mem := []
  cfg := cfg
  draws := 0
  pending := []
  rdata := 0

/-- The machine right after reset (R270), with the default parameters of R6. -/
def State.reset : State := State.resetWith Config.default

/-- How a step or a command ends. -/
abbrev StepResult := Host.Outcome State Fault Refusal

end Sys2Proof.Machine
end

