-- ==== Sys2Proof/Machine/Flags.lean ====
section
/-! DEFINITION. STATUS: its fields (10_state.md R24), the status codes (60_exceptions.md R240) and
how the end of a command and a host write change it (R24, R244). -/

namespace Sys2Proof.Machine

/-- The status codes (R240). -/
inductive StatusCode where
  | ok
  | lengthError
  | alignmentError
  | constructError
  | unwrapHeaderError
  /-- Reserved: never raised (R252). -/
  | parseError
  /-- Reserved: never raised (R252). -/
  | channelError
  | illegalCommand
  | notInitialised
  | badField
  | outOfRange
  | overflow
  | layerAbsent
  deriving DecidableEq, Repr

/-- The numbers of R240. -/
def StatusCode.num : StatusCode → Nat
  | .ok => 0x00
  | .lengthError => 0x01
  | .alignmentError => 0x02
  | .constructError => 0x03
  | .unwrapHeaderError => 0x04
  | .parseError => 0x05
  | .channelError => 0x06
  | .illegalCommand => 0x10
  | .notInitialised => 0x11
  | .badField => 0x12
  | .outOfRange => 0x13
  | .overflow => 0x14
  | .layerAbsent => 0x15

/-- STATUS.CODE, bits 7:0 (R24). -/
def statusCode (st : Word) : Nat := st.toNat % 256

/-- STATUS.ERR, bit 8 (R24). -/
def statusErr (st : Word) : Bool := st.getLsbD 8

/-- A STATUS word from its fields; bits 63:9 are 0 (R24). -/
def statusWord (code : Nat) (err : Bool) : Word := BitVec.ofNat 64 (code + 256 * err.toNat)

/-- The end of every command (R24): CODE is the code, and ERR becomes 1 when it is not OK. -/
def statusAfter (st : Word) (c : StatusCode) : Word :=
  statusWord c.num (statusErr st || decide (c ≠ .ok))

/-- A host write to STATUS (R24): a 1 in bit 8 clears ERR, everything else is ignored. -/
def statusHostWrite (st v : Word) : Word :=
  if v.getLsbD 8 then st &&& ~~~0x100#64 else st

end Sys2Proof.Machine
end

