-- ==== Sys2Proof/Machine/Layout.lean ====
section
/-! DEFINITION. Header layouts (10_state.md R32 to R35) and the functions over them (42_headers.md
R146, R147; 44_assembly.md R183). -/

namespace Sys2Proof.Machine

/-- A row of a layout table: the field's name, its width and the first bit of its range. -/
structure FieldSpec where
  name : String
  width : Nat
  offset : Nat
  deriving DecidableEq, Repr

/-- The layout tables of R33, R34 and R35, by field id. -/
def layout (fw : FlagsWidth) : Tag → List FieldSpec
  | .ethernet =>
    [⟨"dst_mac", 48, 0⟩, ⟨"src_mac", 48, 48⟩, ⟨"ethertype", 16, 96⟩]
  | .arp =>
    [⟨"hw_type", 16, 0⟩, ⟨"proto_type", 16, 16⟩, ⟨"hw_len", 8, 32⟩, ⟨"proto_len", 8, 40⟩,
     ⟨"opcode", 16, 48⟩, ⟨"src_mac", 48, 64⟩, ⟨"src_ip", 32, 112⟩, ⟨"dst_mac", 48, 144⟩,
     ⟨"dst_ip", 32, 192⟩]
  | .ipv4 =>
    [⟨"version", 4, 0⟩, ⟨"ihl", 4, 4⟩, ⟨"tos", 8, 8⟩, ⟨"total_len", 16, 16⟩, ⟨"id", 16, 32⟩,
     ⟨"flags", fw.bits, 48⟩, ⟨"frag_offset", 16 - fw.bits, 48 + fw.bits⟩, ⟨"ttl", 8, 64⟩,
     ⟨"protocol", 8, 72⟩, ⟨"checksum", 16, 80⟩, ⟨"src_ip", 32, 96⟩, ⟨"dst_ip", 32, 128⟩]

/-- `nfields(t)` (R146). -/
def nfields : Tag → Nat
  | .ethernet => 3
  | .arp => 9
  | .ipv4 => 12

/-- `width(t, id)` (R146); 0 for an id that is no field. -/
def fieldWidth (fw : FlagsWidth) (t : Tag) (id : Nat) : Nat :=
  match (layout fw t)[id]? with
  | some f => f.width
  | none => 0

/-- `offset(t, id)` (R146); 0 for an id that is no field. -/
def fieldOffset (fw : FlagsWidth) (t : Tag) (id : Nat) : Nat :=
  match (layout fw t)[id]? with
  | some f => f.offset
  | none => 0

/-- `size(t)` in bytes (R146). -/
def headerSize : Tag → Nat
  | .ethernet => 14
  | .arp => 28
  | .ipv4 => 20

/-- `layer(t)` (R147). -/
def layerOf : Tag → Nat
  | .ethernet => 2
  | .arp => 3
  | .ipv4 => 3

/-- The tag codes of R32. -/
def tagCode : Tag → Nat
  | .ethernet => 1
  | .arp => 2
  | .ipv4 => 3

/-- The tag that a legal tag IMM stands for (R32, R84). -/
def tagOfCode : Nat → Option Tag
  | 1 => some .ethernet
  | 2 => some .arp
  | 3 => some .ipv4
  | _ => none

/-- `LOOKUP(e)` (R183): `none` is Unknown. -/
def etherTypeLookup (e : Nat) : Option Tag :=
  if e = 0x0806 then some .arp else if e = 0x0800 then some .ipv4 else none

end Sys2Proof.Machine
end

