-- ==== Sys2Proof/Machine/Ops.lean ====
section
/-! DEFINITION. The named operations over memory and registers, and the end of a command. -/

namespace Sys2Proof.Machine

/-! ### Memory -/

/-- The canonical form of MEM: addresses strictly rising, all below MEM_SIZE. Every listed byte is
kept, since an unlisted address reads as no fixed byte (R273). -/
abbrev Memory.wf (memSize : Nat) (m : Memory) : Prop :=
  m.Pairwise (fun c d => c.1 < d.1) ∧ ∀ c ∈ m, c.1 < memSize

/-- One byte of MEM, `none` when nothing has written it since the hardware reset. -/
def Memory.read? : Memory → Nat → Option Byte
  | [], _ => none
  | (k, v) :: m, a => if k = a then some v else Memory.read? m a

/-- Write one byte. -/
def Memory.writeByte : Memory → Nat → Byte → Memory
  | [], a, b => [(a, b)]
  | (k, v) :: m, a, b =>
    if a < k then (a, b) :: (k, v) :: m
    else if a = k then (a, b) :: m
    else (k, v) :: Memory.writeByte m a b

/-- `MemWrite`: the bytes in order, the first at the lowest address (R10, R61). -/
def Memory.writeBytes : Memory → Nat → List Byte → Memory
  | m, _, [] => m
  | m, a, b :: bs => Memory.writeBytes (Memory.writeByte m a b) (a + 1) bs

/-- The byte a read of MEM[a] gives now: the last one written, or the free value of this read
(R273). -/
def State.memByte (s : State) (a : Nat) : Byte :=
  match Memory.read? s.mem a with
  | some b => b
  | none => Config.freeByte s.draws a

/-- The bytes of `MemRead(a, n)` (R10). -/
def State.memBytes (s : State) (a n : Nat) : List Byte :=
  (List.range n).map fun k => s.memByte (a + k)

/-- A memory read has happened: the next one draws anew (R273). -/
def State.drawn (s : State) : State := { s with draws := s.draws + 1 }

/-- `MemWrite` (R10). -/
def State.memWrite (s : State) (a : Nat) (bs : List Byte) : State :=
  { s with mem := Memory.writeBytes s.mem a bs }

/-! ### Register files -/

/-- A register of a file, `none` when it is Empty. -/
def regRead {α : Type} (file : List (Option α)) (i : RegIdx) : Option α := (file[i.val]?).join

/-- A file after a write of one register. -/
def regWrite {α : Type} (file : List (Option α)) (i : RegIdx) (x : α) : List (Option α) :=
  file.set i.val (some x)

def State.bfReg (s : State) (i : RegIdx) : Option BitField := regRead s.bf i
def State.hReg (s : State) (i : RegIdx) : Option Header := regRead s.h i
def State.qReg (s : State) (i : RegIdx) : Option Predicate := regRead s.q i

def State.setBf (s : State) (i : RegIdx) (x : BitField) : State :=
  { s with bf := regWrite s.bf i x }
def State.setH (s : State) (i : RegIdx) (x : Header) : State :=
  { s with h := regWrite s.h i x }
def State.setQ (s : State) (i : RegIdx) (x : Predicate) : State :=
  { s with q := regWrite s.q i x }

/-- `RES[0] <- zext_64(v)`. -/
def State.setRes0 (s : State) (v : Nat) : State := { s with res0 := BitVec.ofNat 64 v }

/-- `RES[1] <- zext_64(v)`. -/
def State.setRes1 (s : State) (v : Nat) : State := { s with res1 := BitVec.ofNat 64 v }

/-- The word of a CMD write is stored (R25). -/
def State.setCmd (s : State) (w : Word) : State := { s with cmd := w }

/-- STATUS after a host write (R24). -/
def State.setStatus (s : State) (st : Word) : State := { s with status := st }

/-- The host got this value from a read (R89). -/
def State.setRdata (s : State) (v : Word) : State := { s with rdata := v }

/-- The host accesses still to come. -/
def State.setPending (s : State) (l : List HostAccess) : State := { s with pending := l }

/-- `FB <- FB ++ S`; FB_LEN grows with it (R27, R38). -/
def State.fbAppend (s : State) (S : List Bool) : State := { s with fb := s.fb ++ S }

/-! ### The end of a command -/

/-- Every command writes STATUS at its end (R12, R24). -/
def State.withStatus (s : State) (c : StatusCode) : State :=
  { s with status := statusAfter s.status c }

/-- `done`: the command ends with status OK (R10). -/
def State.done (s : State) : StepResult := .next (s.withStatus .ok)

/-- `raise E` (R10): PKC's one way to report an error. It writes STATUS and nothing else, saves no
state, changes no mode and takes no vector, and there is no return from it (R243, R247, R249). -/
def State.raise (s : State) (c : StatusCode) : StepResult := .next (s.withStatus c)

end Sys2Proof.Machine
end

