-- ==== Sys2Proof/Machine/Operands.lean ====
section
/-! DEFINITION. The operand forms: what a command reads before its effect and the checks that go
with it. Each takes the rest of the command as `k` and raises the check's code when it fails, so
that a meaning lists its checks in the order its rule gives them (00_scope.md R12, R245). -/

namespace Sys2Proof.Machine

/-- Checks (4) and (5) of R83 come before anything else of a command (R242). -/
def State.command (s : State) (i : Instr) (k : StepResult) : StepResult :=
  if i.wellFormed s.cfg then k else s.raise .illegalCommand

/-- A BitField operand that is only compared (R104): NotInitialised when Empty (R241). -/
def State.withBfRaw (s : State) (i : RegIdx) (k : BitField → StepResult) : StepResult :=
  match s.bfReg i with
  | none => s.raise .notInitialised
  | some b => k b

/-- A BitField operand that is formatted (R102, R103, R122): it is validated again first, and a
value that does not fit its width is LengthError, not an abort (R246). -/
def State.withBf (s : State) (i : RegIdx) (k : BitField → StepResult) : StepResult :=
  s.withBfRaw i fun b => if b.value ≥ 2 ^ b.width then s.raise .lengthError else k b

/-- A header operand: NotInitialised when Empty (R241). -/
def State.withH (s : State) (i : RegIdx) (k : Header → StepResult) : StepResult :=
  match s.hReg i with
  | none => s.raise .notInitialised
  | some x => k x

/-- A predicate operand: NotInitialised when Empty (R241). -/
def State.withQ (s : State) (i : RegIdx) (k : Predicate → StepResult) : StepResult :=
  match s.qReg i with
  | none => s.raise .notInitialised
  | some p => k p

/-- A tag IMM. Outside {1, 2, 3} the command is illegal (R83 check (5), R86); `State.command` has
refused it before. -/
def State.withTag (s : State) (imm : Imm) (k : Tag → StepResult) : StepResult :=
  match tagOfCode imm.val with
  | none => s.raise .illegalCommand
  | some t => k t

/-- A field id of a register with tag t: BadField unless it is below nfields(t) (R141). -/
def State.withField (s : State) (t : Tag) (id : Nat) (k : StepResult) : StepResult :=
  if id < nfields t then k else s.raise .badField

/-- A value for field id of tag t: LengthError unless it is below 2^width (R141, R202). -/
def State.withFits (s : State) (t : Tag) (id v : Nat) (k : StepResult) : StepResult :=
  if v < 2 ^ fieldWidth s.cfg.flagsWidth t id then k else s.raise .lengthError

/-- The range check of 20_memory.md R62, in unbounded arithmetic. -/
def State.withRange (s : State) (off n : Nat) (k : StepResult) : StepResult :=
  if off + n ≤ s.cfg.memSize then k else s.raise .outOfRange

/-- Room in the FrameBuffer for n more bits, else Overflow (R121, R122). -/
def State.withRoom (s : State) (n : Nat) (k : StepResult) : StepResult :=
  if s.fb.length + n ≤ s.cfg.fbCapBits then k else s.raise .overflow

/-- A bit range of FB: OutOfRange unless start ≤ end ≤ FB_LEN (R123, R124). -/
def State.withFbRange (s : State) (a b : Nat) (k : StepResult) : StepResult :=
  if a ≤ b ∧ b ≤ s.fb.length then k else s.raise .outOfRange

/-- A bit count that must be whole bytes, else AlignmentError (R66, R124, R125). -/
def State.withWholeBytes (s : State) (n : Nat) (k : StepResult) : StepResult :=
  if n % 8 = 0 then k else s.raise .alignmentError

/-- A FrameAssembly slot a command needs: LayerAbsent when absent (R182, R185). -/
def State.withSlot (s : State) (slot : Option Header) (k : Header → StepResult) : StepResult :=
  match slot with
  | none => s.raise .layerAbsent
  | some x => k x

/-- The variant a command needs (R145, R162, R164, R166): UnwrapHeaderError on another. -/
def State.withVariant (s : State) (x : Header) (t : Tag) (k : StepResult) : StepResult :=
  if x.tag = t then k else s.raise .unwrapHeaderError

end Sys2Proof.Machine
end

