-- ==== Sys2Proof/Machine/Codec.lean ====
section
/-! DEFINITION. ENCODE and DECODE (43_codecs.md R160, R161) and the shared CREATE and PARSE
operations. The scratch FrameBuffer of a codec command is the value computed here: it exists only
inside the command and is never FB (10_state.md R43). -/

namespace Sys2Proof.Machine

/-- The bits of a header: its fields' padded bits in layout order (R160). -/
def encodeBits (fw : FlagsWidth) (x : Header) : List Bool :=
  (List.range (nfields x.tag)).flatMap fun id =>
    bitsOf (x.fields.getD id 0) (fieldWidth fw x.tag id)

/-- `ENCODE(t, f)` (R160). -/
def encodeHeader (fw : FlagsWidth) (x : Header) : List Byte := bitsToBytes (encodeBits fw x)

/-- The bits DECODE reads: the input's, with zeros for what is missing of the header (R161). -/
def decodeInput (t : Tag) (B : List Byte) : List Bool :=
  bytesToBits B ++ zeroBits (8 * headerSize t - (bytesToBits B).length)

/-- `DECODE(t, B)` (R161): it never fails and checks nothing (R170). -/
def decodeHeader (fw : FlagsWidth) (t : Tag) (B : List Byte) : Header where
  tag := t
  fields := (List.range (nfields t)).map fun id =>
    valOf (sliceBits (decodeInput t B) (fieldOffset fw t id)
      (fieldOffset fw t id + fieldWidth fw t id))

/-- The CREATE commands (R162, R164, R166): ARG0 is the MEM offset to write to. -/
def State.createHeader (s : State) (t : Tag) (hs : RegIdx) : StepResult :=
  s.withH hs fun x =>
  s.withVariant x t <|
  s.withRange s.arg0.toNat (headerSize t) <|
  ((s.memWrite s.arg0.toNat (encodeHeader s.cfg.flagsWidth x)).setRes0 (headerSize t)).done

/-- The PARSE commands (R163, R165, R167): ARG0 is the MEM offset and ARG1 the byte count. -/
def State.parseHeader (s : State) (t : Tag) (hd : RegIdx) : StepResult :=
  s.withRange s.arg0.toNat s.arg1.toNat <|
  (s.drawn.setH hd
    (decodeHeader s.cfg.flagsWidth t (s.memBytes s.arg0.toNat s.arg1.toNat))).done

end Sys2Proof.Machine
end

