-- ==== Sys2Proof/Machine/Assembly.lean ====
section
/-! DEFINITION. The FrameAssembly commands (44_assembly.md). -/

namespace Sys2Proof.Machine

/-- The slot of a layer (R147, R182): L2 for 2, L3 otherwise. -/
def State.slot (s : State) (layer : Nat) : Option Header := if layer = 2 then s.l2 else s.l3

/-- FA.NEW (R180). -/
def execFaNew (s : State) : StepResult :=
  s.command .faNew ({ s with l2 := none, l3 := none, faBuf := [] } : State).done

/-- FA.SET (R181): a value copy into the slot of the header's layer; FA_BUF stays. -/
def execFaSet (hs : RegIdx) (s : State) : StepResult :=
  s.command (.faSet hs) <|
  s.withH hs fun x =>
  (if layerOf x.tag = 2 then { s with l2 := some x } else { s with l3 := some x } : State).done

/-- FA.GET (R182): a value copy of a slot into a header register. -/
def execFaGet (hd : RegIdx) (layer : Imm) (s : State) : StepResult :=
  s.command (.faGet hd layer) <|
  s.withSlot (s.slot layer.val) fun x => (s.setH hd x).done

/-- The layer-3 header of a frame whose Ethernet header is e (R184): none for an unknown EtherType,
else decoded from the bytes after the first 14. -/
def parsePayload (fw : FlagsWidth) (e : Header) (B : List Byte) : Option Header :=
  match etherTypeLookup (e.fields.getD 2 0) with
  | none => none
  | some k => some (decodeHeader fw k (B.drop 14))

/-- The Ethernet header of a frame (R184): DECODE of its first min(14, n) bytes. -/
def parseLink (fw : FlagsWidth) (B : List Byte) : Header :=
  decodeHeader fw .ethernet (B.take 14)

/-- A fresh FrameAssembly from the bytes of a frame (R184). -/
def State.parseFrame (s : State) (B : List Byte) : State :=
  { s with
    l2 := some (parseLink s.cfg.flagsWidth B)
    l3 := parsePayload s.cfg.flagsWidth (parseLink s.cfg.flagsWidth B) B
    faBuf := [] }

/-- FA.PARSE (R184). -/
def execFaParse (s : State) : StepResult :=
  s.command .faParse <|
  s.withRange s.arg0.toNat s.arg1.toNat <|
  (s.drawn.parseFrame (s.memBytes s.arg0.toNat s.arg1.toNat)).done

/-- The built frame length (R6 ETH_MIN_FRAME). -/
def ethMinFrame : Nat := 60

/-- A frame padded with zero bytes to the built length (R185). -/
def padFrame (B : List Byte) : List Byte := B ++ List.replicate (ethMinFrame - B.length) 0

/-- The unpadded frame of a link header and a network header (R185). The EtherType is written as
stored (R189). -/
def frameBytes (fw : FlagsWidth) (e x : Header) : List Byte :=
  encodeHeader fw e ++ encodeHeader fw x

/-- FA.BUILD (R185). The ConstructError check cannot fail with PKC's headers (R188). -/
def execFaBuild (s : State) : StepResult :=
  s.command .faBuild <|
  s.withSlot s.l3 fun x =>
  match s.l2 with
  | none =>
    if s.cfg.legacyEmptyBuild then ({ s with faBuf := [] } : State).done
    else s.raise .layerAbsent
  | some e =>
    if (frameBytes s.cfg.flagsWidth e x).length > ethMinFrame then s.raise .constructError
    else ({ s with faBuf := padFrame (frameBytes s.cfg.flagsWidth e x) } : State).done

/-- FA.READ (R186): copy FA_BUF to MEM at ARG0. -/
def execFaRead (s : State) : StepResult :=
  s.command .faRead <|
  s.withRange s.arg0.toNat s.faBuf.length <|
  ((s.memWrite s.arg0.toNat s.faBuf).setRes0 s.faBuf.length).done

end Sys2Proof.Machine
end

