-- ==== Sys2Proof/Machine/BitFields.lean ====
section
/-! DEFINITION. The BitField commands (40_bitfield.md). -/

namespace Sys2Proof.Machine

/-- A legal BitField (R100). -/
abbrev legalBitField (width value : Nat) : Prop := 1 ≤ width ∧ width ≤ 64 ∧ value < 2 ^ width

/-- BF.NEW (R101): construct a BitField from ARG0. -/
def execBfNew (bd : RegIdx) (width : Imm) (s : State) : StepResult :=
  s.command (.bfNew bd width) <|
  if legalBitField width.val s.arg0.toNat then
    (s.setBf bd ⟨width.val, s.arg0.toNat⟩).done
  else s.raise .lengthError

/-- BF.BITS (R102): the padded bit string, right-aligned in RES0, with its length in RES1. -/
def execBfBits (bs : RegIdx) (s : State) : StepResult :=
  s.command (.bfBits bs) <|
  s.withBf bs fun b => ((s.setRes0 (valOf (bitsOf b.value b.width))).setRes1 b.width).done

/-- BF.VAL (R103): the decoded value. -/
def execBfVal (bs : RegIdx) (s : State) : StepResult :=
  s.command (.bfVal bs) <|
  s.withBf bs fun b => (s.setRes0 (valOf (bitsOf b.value b.width))).done

/-- BF.EQ (R104): equality of the values; widths are not compared. -/
def execBfEq (ba bb : RegIdx) (s : State) : StepResult :=
  s.command (.bfEq ba bb) <|
  s.withBfRaw ba fun x =>
  s.withBfRaw bb fun y => (s.setRes0 (if x.value = y.value then 1 else 0)).done

end Sys2Proof.Machine
end

