-- ==== Sys2Proof/Machine/Codecs.lean ====
section
/-! DEFINITION. The header codec commands (43_codecs.md). -/

namespace Sys2Proof.Machine

/-- ETH.CREATE (R162). -/
def execEthCreate (hs : RegIdx) (s : State) : StepResult :=
  s.command (.ethCreate hs) (s.createHeader .ethernet hs)

/-- ETH.PARSE (R163). -/
def execEthParse (hd : RegIdx) (s : State) : StepResult :=
  s.command (.ethParse hd) (s.parseHeader .ethernet hd)

/-- ARP.CREATE (R164). -/
def execArpCreate (hs : RegIdx) (s : State) : StepResult :=
  s.command (.arpCreate hs) (s.createHeader .arp hs)

/-- ARP.PARSE (R165). -/
def execArpParse (hd : RegIdx) (s : State) : StepResult :=
  s.command (.arpParse hd) (s.parseHeader .arp hd)

/-- IP4.CREATE (R166): the checksum field is written as stored (R171). -/
def execIp4Create (hs : RegIdx) (s : State) : StepResult :=
  s.command (.ip4Create hs) (s.createHeader .ipv4 hs)

/-- IP4.PARSE (R167). -/
def execIp4Parse (hd : RegIdx) (s : State) : StepResult :=
  s.command (.ip4Parse hd) (s.parseHeader .ipv4 hd)

end Sys2Proof.Machine
end

