-- ==== Sys2Proof/Machine/FrameBuffers.lean ====
section
/-! DEFINITION. The FrameBuffer commands (41_framebuffer.md). -/

namespace Sys2Proof.Machine

/-- FB.CLR (R120). -/
def execFbClr (s : State) : StepResult :=
  s.command .fbClr ({ s with fb := [] } : State).done

/-- FB.APPB (R121): append ARG1 bytes of MEM from ARG0, each most significant bit first. -/
def execFbAppb (s : State) : StepResult :=
  s.command .fbAppb <|
  s.withRange s.arg0.toNat s.arg1.toNat <|
  s.withRoom (8 * s.arg1.toNat) <|
  (s.drawn.fbAppend (bytesToBits (s.memBytes s.arg0.toNat s.arg1.toNat))).done

/-- FB.APPF (R122): append a BitField's padded bits. -/
def execFbAppf (bs : RegIdx) (s : State) : StepResult :=
  s.command (.fbAppf bs) <|
  s.withBf bs fun b =>
  s.withRoom b.width <|
  (s.fbAppend (bitsOf b.value b.width)).done

/-- FB.SLB (R123): the bits [ARG0, ARG1) in RES0, their number in RES1, at most 64. -/
def execFbSlb (s : State) : StepResult :=
  s.command .fbSlb <|
  s.withFbRange s.arg0.toNat s.arg1.toNat <|
  if s.arg1.toNat - s.arg0.toNat > 64 then s.raise .outOfRange
  else
    ((s.setRes0 (valOf (sliceBits s.fb s.arg0.toNat s.arg1.toNat))).setRes1
      (s.arg1.toNat - s.arg0.toNat)).done

/-- FB.SLY (R124): the bytes of the bits [ARG0, ARG1), written to MEM at ARG2. -/
def execFbSly (s : State) : StepResult :=
  s.command .fbSly <|
  s.withFbRange s.arg0.toNat s.arg1.toNat <|
  s.withWholeBytes (s.arg1.toNat - s.arg0.toNat) <|
  s.withRange s.arg2.toNat ((s.arg1.toNat - s.arg0.toNat) / 8) <|
  ((s.memWrite s.arg2.toNat (bitsToBytes (sliceBits s.fb s.arg0.toNat s.arg1.toNat))).setRes0
    ((s.arg1.toNat - s.arg0.toNat) / 8)).done

/-- FB.TOB (R125): the bytes of the whole buffer, written to MEM at ARG0. -/
def execFbTob (s : State) : StepResult :=
  s.command .fbTob <|
  s.withWholeBytes s.fb.length <|
  s.withRange s.arg0.toNat (s.fb.length / 8) <|
  ((s.memWrite s.arg0.toNat (bitsToBytes s.fb)).setRes0 (s.fb.length / 8)).done

end Sys2Proof.Machine
end

