-- ==== Sys2Proof/Machine/Headers.lean ====
section
/-! DEFINITION. The header register commands (42_headers.md). -/

namespace Sys2Proof.Machine

/-- HDR.INIT (R140): a header of the tag with every field 0. -/
def execHdrInit (hd : RegIdx) (tag : Imm) (s : State) : StepResult :=
  s.command (.hdrInit hd tag) <|
  s.withTag tag fun t => (s.setH hd ⟨t, List.replicate (nfields t) 0⟩).done

/-- HDR.SET (R141): one field from ARG0. -/
def execHdrSet (hd : RegIdx) (field : Imm) (s : State) : StepResult :=
  s.command (.hdrSet hd field) <|
  s.withH hd fun x =>
  s.withField x.tag field.val <|
  s.withFits x.tag field.val s.arg0.toNat <|
  (s.setH hd { x with fields := x.fields.set field.val s.arg0.toNat }).done

/-- HDR.GET (R142): one field to RES0. -/
def execHdrGet (hs : RegIdx) (field : Imm) (s : State) : StepResult :=
  s.command (.hdrGet hs field) <|
  s.withH hs fun x =>
  s.withField x.tag field.val <|
  (s.setRes0 (x.fields.getD field.val 0)).done

/-- HDR.TAG (R143): the tag code to RES0, 0 for an Empty register. -/
def execHdrTag (hs : RegIdx) (s : State) : StepResult :=
  s.command (.hdrTag hs) <|
  (s.setRes0 (match s.hReg hs with
    | none => 0
    | some x => tagCode x.tag)).done

/-- HDR.COPY (R144): a value copy. -/
def execHdrCopy (hd hs : RegIdx) (s : State) : StepResult :=
  s.command (.hdrCopy hd hs) <|
  s.withH hs fun x => (s.setH hd x).done

/-- HDR.UNWRAP (R145): check the variant; nothing else. -/
def execHdrUnwrap (hs : RegIdx) (tag : Imm) (s : State) : StepResult :=
  s.command (.hdrUnwrap hs tag) <|
  s.withTag tag fun t =>
  s.withH hs fun x =>
  s.withVariant x t s.done

end Sys2Proof.Machine
end

