-- ==== Sys2Proof/Machine/Matcher.lean ====
section
/-! DEFINITION. The wildcard matcher commands (45_matcher.md). -/

namespace Sys2Proof.Machine

/-- One field of a predicate against one field of a header (R200). -/
def fieldMatches (p : Option Nat) (v : Nat) : Bool :=
  match p with
  | none => true
  | some w => w == v

/-- `MATCH((t, p), (t, f))` (R200): the AND over all field ids. -/
def predicateMatches (p : Predicate) (x : Header) : Bool :=
  (List.range (nfields p.tag)).all fun id =>
    fieldMatches (p.fields.getD id none) (x.fields.getD id 0)

/-- A predicate meets a header (R200, R207): on a tag mismatch MATCH_TAG_MISMATCH decides. -/
def State.matchHeader (s : State) (p : Predicate) (x : Header) : StepResult :=
  if p.tag = x.tag then (s.setRes0 (predicateMatches p x).toNat).done
  else
    match s.cfg.tagMismatch with
    | .noMatch => (s.setRes0 0).done
    | .unwrap => s.raise .unwrapHeaderError

/-- Q.INIT (R201): a predicate of the tag with every field a wildcard. -/
def execQInit (qd : RegIdx) (tag : Imm) (s : State) : StepResult :=
  s.command (.qInit qd tag) <|
  s.withTag tag fun t => (s.setQ qd ⟨t, List.replicate (nfields t) none⟩).done

/-- Q.SET (R202): constrain one field to ARG0. -/
def execQSet (qd : RegIdx) (field : Imm) (s : State) : StepResult :=
  s.command (.qSet qd field) <|
  s.withQ qd fun p =>
  s.withField p.tag field.val <|
  s.withFits p.tag field.val s.arg0.toNat <|
  (s.setQ qd { p with fields := p.fields.set field.val (some s.arg0.toNat) }).done

/-- Q.ANY (R203): make one field a wildcard. -/
def execQAny (qd : RegIdx) (field : Imm) (s : State) : StepResult :=
  s.command (.qAny qd field) <|
  s.withQ qd fun p =>
  s.withField p.tag field.val <|
  (s.setQ qd { p with fields := p.fields.set field.val none }).done

/-- Q.MATCH (R204): match against a header register. -/
def execQMatch (qs hs : RegIdx) (s : State) : StepResult :=
  s.command (.qMatch qs hs) <|
  s.withQ qs fun p =>
  s.withH hs fun x => s.matchHeader p x

/-- Q.MATCHFA (R205): match against the slot at the predicate's natural layer (R206); an absent slot
is no match. -/
def execQMatchfa (qs : RegIdx) (s : State) : StepResult :=
  s.command (.qMatchfa qs) <|
  s.withQ qs fun p =>
  match s.slot (layerOf p.tag) with
  | none => (s.setRes0 0).done
  | some x => s.matchHeader p x

end Sys2Proof.Machine
end

