-- ==== Sys2Proof/Machine/System.lean ====
section
/-! DEFINITION. The system command (46_system.md). -/

namespace Sys2Proof.Machine

/-- NOP (R220): nothing but STATUS. -/
def execNop (s : State) : StepResult :=
  s.command .nop s.done

end Sys2Proof.Machine
end

