-- ==== Sys2Proof/Machine/Dispatch.lean ====
section
/-! DEFINITION. One arm per command (30_encoding.md R84). -/

namespace Sys2Proof.Machine

def exec (i : Instr) (s : State) : Host.Outcome State Fault Refusal :=
  match i with
  | .nop => Sys2Proof.Machine.execNop s
  | .bfNew bd width => Sys2Proof.Machine.execBfNew bd width s
  | .bfBits bs => Sys2Proof.Machine.execBfBits bs s
  | .bfVal bs => Sys2Proof.Machine.execBfVal bs s
  | .bfEq ba bb => Sys2Proof.Machine.execBfEq ba bb s
  | .fbClr => Sys2Proof.Machine.execFbClr s
  | .fbAppb => Sys2Proof.Machine.execFbAppb s
  | .fbAppf bs => Sys2Proof.Machine.execFbAppf bs s
  | .fbSlb => Sys2Proof.Machine.execFbSlb s
  | .fbSly => Sys2Proof.Machine.execFbSly s
  | .fbTob => Sys2Proof.Machine.execFbTob s
  | .hdrInit hd tag => Sys2Proof.Machine.execHdrInit hd tag s
  | .hdrSet hd field => Sys2Proof.Machine.execHdrSet hd field s
  | .hdrGet hs field => Sys2Proof.Machine.execHdrGet hs field s
  | .hdrTag hs => Sys2Proof.Machine.execHdrTag hs s
  | .hdrCopy hd hs => Sys2Proof.Machine.execHdrCopy hd hs s
  | .hdrUnwrap hs tag => Sys2Proof.Machine.execHdrUnwrap hs tag s
  | .ethCreate hs => Sys2Proof.Machine.execEthCreate hs s
  | .ethParse hd => Sys2Proof.Machine.execEthParse hd s
  | .arpCreate hs => Sys2Proof.Machine.execArpCreate hs s
  | .arpParse hd => Sys2Proof.Machine.execArpParse hd s
  | .ip4Create hs => Sys2Proof.Machine.execIp4Create hs s
  | .ip4Parse hd => Sys2Proof.Machine.execIp4Parse hd s
  | .faNew => Sys2Proof.Machine.execFaNew s
  | .faSet hs => Sys2Proof.Machine.execFaSet hs s
  | .faGet hd layer => Sys2Proof.Machine.execFaGet hd layer s
  | .faParse => Sys2Proof.Machine.execFaParse s
  | .faBuild => Sys2Proof.Machine.execFaBuild s
  | .faRead => Sys2Proof.Machine.execFaRead s
  | .qInit qd tag => Sys2Proof.Machine.execQInit qd tag s
  | .qSet qd field => Sys2Proof.Machine.execQSet qd field s
  | .qAny qd field => Sys2Proof.Machine.execQAny qd field s
  | .qMatch qs hs => Sys2Proof.Machine.execQMatch qs hs s
  | .qMatchfa qs => Sys2Proof.Machine.execQMatchfa qs s

end Sys2Proof.Machine
end

