-- ==== Sys2Proof/Machine/HostPort.lean ====
section
/-! DEFINITION. The host window (20_memory.md R67 to R71): what one host access does, running the
command of a CMD write among it (10_state.md R25), and the two resets (70_reset_and_hazards.md). -/

namespace Sys2Proof.Machine

/-- The registers of the host window (R67). -/
inductive HostReg where
  | ctrl
  | status
  | cmd
  | arg0
  | arg1
  | arg2
  | arg3
  | res0
  | res1
  | fbLen
  | faLen
  deriving DecidableEq, Repr

/-- The register at an offset of the host window (R67). -/
def hostRegAt : Nat → Option HostReg
  | 0x000 => some .ctrl
  | 0x008 => some .status
  | 0x010 => some .cmd
  | 0x020 => some .arg0
  | 0x028 => some .arg1
  | 0x030 => some .arg2
  | 0x038 => some .arg3
  | 0x040 => some .res0
  | 0x048 => some .res1
  | 0x050 => some .fbLen
  | 0x058 => some .faLen
  | _ => none

/-- The offset of a register (R67). -/
def hostRegOffset : HostReg → Nat
  | .ctrl => 0x000
  | .status => 0x008
  | .cmd => 0x010
  | .arg0 => 0x020
  | .arg1 => 0x028
  | .arg2 => 0x030
  | .arg3 => 0x038
  | .res0 => 0x040
  | .res1 => 0x048
  | .fbLen => 0x050
  | .faLen => 0x058

/-- Where the MEM window starts (R67). -/
def memWindowBase : Nat := 0x1000

/-- What an offset of the host window is (R67 to R69). -/
inductive HostTarget where
  | reg (r : HostReg)
  | mem (addr : Nat)
  /-- Inside a register, not at its offset (R68). -/
  | unaligned
  /-- A reserved offset (R69). -/
  | reserved
  /-- At or beyond 0x1000 + MEM_SIZE (R69). -/
  | unmapped
  deriving DecidableEq, Repr

/-- The host window map (R67). -/
def hostTarget (cfg : Config) (off : Nat) : HostTarget :=
  if off < memWindowBase then
    match hostRegAt off with
    | some r => .reg r
    | none => if (hostRegAt (off - off % 8)).isSome then .unaligned else .reserved
  else if off < memWindowBase + cfg.memSize then .mem (off - memWindowBase)
  else .unmapped

/-- Soft reset (R272): the state change of a hardware reset on everything but MEM. What is not
PKC's own state (the parameters, the host's accesses and data, the draw counter) stays. -/
def State.softReset (s : State) : State :=
  { State.resetWith s.cfg with
    mem := s.mem, draws := s.draws, pending := s.pending, rdata := s.rdata }

/-- Hardware reset (R270): as the soft reset, and every byte of MEM is unwritten again (R273). The
draw counter goes on, so that later reads draw afresh. -/
def State.hardReset (s : State) : State :=
  { State.resetWith s.cfg with
    draws := s.draws, pending := s.pending, rdata := s.rdata }

/-- Run the command that a word encodes: IllegalCommand when it has no instruction (R83, R86), else
its meaning, which makes the remaining decode checks. -/
def State.runCommand (s : State) (w : Word) : StepResult :=
  match decode w with
  | .error _ => s.raise .illegalCommand
  | .ok i => exec i s

/-- The value a host read of a register returns (R22 to R28, R67). -/
def State.readReg (s : State) : HostReg → Word
  | .ctrl => 0
  | .status => s.status
  | .cmd => s.cmd
  | .arg0 => s.arg0
  | .arg1 => s.arg1
  | .arg2 => s.arg2
  | .arg3 => s.arg3
  | .res0 => s.res0
  | .res1 => s.res1
  | .fbLen => BitVec.ofNat 64 s.fb.length
  | .faLen => BitVec.ofNat 64 s.faBuf.length

/-- A host write of a register (R22 to R28, R70, R71). -/
def State.writeReg (s : State) (r : HostReg) (v : Word) : StepResult :=
  match r with
  | .ctrl => .next (if v.getLsbD 0 then s.softReset else s)
  | .status => .next (s.setStatus (statusHostWrite s.status v))
  | .cmd => (s.setCmd v).runCommand v
  | .arg0 => .next { s with arg0 := v }
  | .arg1 => .next { s with arg1 := v }
  | .arg2 => .next { s with arg2 := v }
  | .arg3 => .next { s with arg3 := v }
  | .res0 | .res1 | .fbLen | .faLen => .next s

/-- A host read (R67 to R69, R71). The value returned is kept in `rdata`. -/
def State.hostRead (s : State) (size : AccessSize) (off : Nat) : StepResult :=
  match hostTarget s.cfg off with
  | .reg r =>
    if size = .b64 then .next (s.setRdata (s.readReg r)) else .refused .hostAccessWidth
  | .mem a =>
    if size = .b8 then .next (s.drawn.setRdata ((s.memByte a).setWidth 64))
    else .refused .hostAccessWidth
  | .unaligned => .refused .hostUnalignedOffset
  | .reserved => .refused .hostReservedOffset
  | .unmapped => .refused .hostUnmappedOffset

/-- A host write (R67 to R71). -/
def State.hostWrite (s : State) (size : AccessSize) (off : Nat) (v : Word) : StepResult :=
  match hostTarget s.cfg off with
  | .reg r => if size = .b64 then s.writeReg r v else .refused .hostAccessWidth
  | .mem a =>
    if size = .b8 then .next (s.memWrite a [v.setWidth 8]) else .refused .hostAccessWidth
  | .unaligned => .refused .hostUnalignedOffset
  | .reserved => .refused .hostReservedOffset
  | .unmapped => .refused .hostUnmappedOffset

/-- One interaction of the table of R276. -/
def State.hostAccess (s : State) : HostAccess → StepResult
  | .read size off => s.hostRead size off
  | .write size off v => s.hostWrite size off v
  | .hardwareReset => .next s.hardReset

/-- The host access that issues a command word: a 64-bit write of it to CMD (R25, R67). -/
def cmdWrite (w : Word) : HostAccess := .write .b64 0x010 w

end Sys2Proof.Machine
end

