-- ==== Sys2Proof/Machine/Step.lean ====
section
/-! DEFINITION. One step of PKC: the next host access takes effect, completely and atomically
(10_state.md R20, R25; 20_memory.md R72, R73). -/

namespace Sys2Proof.Machine

/-- With no access pending PKC is idle (R274, R280), and a step leaves it as it is. -/
def step (s : State) : Host.Outcome State Fault Refusal :=
  match s.pending with
  | [] => .next s
  | a :: rest => (s.setPending rest).hostAccess a

/-- The state in which the next step runs the command word `w`: PKC fetches nothing (R75), a
command comes as a host write to CMD, so that write is put before the other pending accesses. -/
def State.withFetchWord (s : State) (nbits w : Nat) : State :=
  s.setPending (cmdWrite (BitVec.ofNat 64 (w % 2 ^ nbits)) :: s.pending)

end Sys2Proof.Machine
end

