-- ==== Sys2Proof/Machine/HostScript.lean ====
section
/-! DEFINITION. Notation of the spec as host accesses: the assembly spelling of a command
(30_encoding.md R88), the host script operations (R89) and the pseudo-instructions (R90). The
host's own control flow (goto, if, halt) is not PKC's (R41, R89). -/

namespace Sys2Proof.Machine

/-- The assembly spelling of a tag IMM (R88); an IMM that is no tag is written as a number. -/
def asmTag (imm : Imm) : String :=
  match imm.val with
  | 1 => "eth"
  | 2 => "arp"
  | 3 => "ip4"
  | n => toString n

/-- The tag that a protocol prefix of a symbolic field name stands for (R88). -/
def asmProto : String → Option Tag
  | "eth" => some .ethernet
  | "arp" => some .arp
  | "ip4" => some .ipv4
  | _ => none

/-- The field id that the symbolic name `proto.field` spells (R88). The register's tag plays no
part. -/
def asmFieldId (fw : FlagsWidth) (proto field : String) : Option Nat :=
  match asmProto proto with
  | none => none
  | some t => (layout fw t).findIdx? fun f => f.name = field

def asmB (r : RegIdx) : String := "b" ++ toString r.val
def asmH (r : RegIdx) : String := "h" ++ toString r.val
def asmQ (r : RegIdx) : String := "q" ++ toString r.val

/-- The operands of a command in the order A, B, IMM (R88). A field id is written as a number. -/
def asmOperands : Instr → List String
  | .nop | .fbClr | .fbAppb | .fbSlb | .fbSly | .fbTob
  | .faNew | .faParse | .faBuild | .faRead => []
  | .bfNew bd width => [asmB bd, toString width.val]
  | .bfBits bs | .bfVal bs | .fbAppf bs => [asmB bs]
  | .bfEq ba bb => [asmB ba, asmB bb]
  | .hdrInit r tag | .hdrUnwrap r tag => [asmH r, asmTag tag]
  | .hdrSet r n | .hdrGet r n | .faGet r n => [asmH r, toString n.val]
  | .hdrTag r | .ethCreate r | .ethParse r | .arpCreate r | .arpParse r | .ip4Create r
  | .ip4Parse r | .faSet r => [asmH r]
  | .hdrCopy hd hs => [asmH hd, asmH hs]
  | .qInit qd tag => [asmQ qd, asmTag tag]
  | .qSet qd n | .qAny qd n => [asmQ qd, toString n.val]
  | .qMatch qs hs => [asmQ qs, asmH hs]
  | .qMatchfa qs => [asmQ qs]

/-- The mnemonic in lower case (R88). -/
def asmMnemonic : Instr → String
  | .nop => "nop"
  | .bfNew _ _ => "bf.new"
  | .bfBits _ => "bf.bits"
  | .bfVal _ => "bf.val"
  | .bfEq _ _ => "bf.eq"
  | .fbClr => "fb.clr"
  | .fbAppb => "fb.appb"
  | .fbAppf _ => "fb.appf"
  | .fbSlb => "fb.slb"
  | .fbSly => "fb.sly"
  | .fbTob => "fb.tob"
  | .hdrInit _ _ => "hdr.init"
  | .hdrSet _ _ => "hdr.set"
  | .hdrGet _ _ => "hdr.get"
  | .hdrTag _ => "hdr.tag"
  | .hdrCopy _ _ => "hdr.copy"
  | .hdrUnwrap _ _ => "hdr.unwrap"
  | .ethCreate _ => "eth.create"
  | .ethParse _ => "eth.parse"
  | .arpCreate _ => "arp.create"
  | .arpParse _ => "arp.parse"
  | .ip4Create _ => "ip4.create"
  | .ip4Parse _ => "ip4.parse"
  | .faNew => "fa.new"
  | .faSet _ => "fa.set"
  | .faGet _ _ => "fa.get"
  | .faParse => "fa.parse"
  | .faBuild => "fa.build"
  | .faRead => "fa.read"
  | .qInit _ _ => "q.init"
  | .qSet _ _ => "q.set"
  | .qAny _ _ => "q.any"
  | .qMatch _ _ => "q.match"
  | .qMatchfa _ => "q.matchfa"

/-- The operands separated by commas (R88). -/
def joinOperands : List String → String
  | [] => ""
  | [x] => x
  | x :: y :: xs => x ++ ", " ++ joinOperands (y :: xs)

/-- The assembly spelling of a command (R88): its mnemonic in lower case, then its used fields. -/
def asm (i : Instr) : String :=
  match asmOperands i with
  | [] => asmMnemonic i
  | ops => asmMnemonic i ++ " " ++ joinOperands ops

/-- The field value of the MAC address a1:a2:a3:a4:a5:a6 (20_memory.md R64): a1 is the first byte on
the wire. -/
def macValue (a1 a2 a3 a4 a5 a6 : Byte) : Nat :=
  a1.toNat * 2 ^ 40 + a2.toNat * 2 ^ 32 + a3.toNat * 2 ^ 24 + a4.toNat * 2 ^ 16 +
    a5.toNat * 2 ^ 8 + a6.toNat

/-- The field value of the IPv4 address d1.d2.d3.d4 (20_memory.md R64). -/
def ipv4Value (d1 d2 d3 d4 : Byte) : Nat :=
  d1.toNat * 2 ^ 24 + d2.toNat * 2 ^ 16 + d3.toNat * 2 ^ 8 + d4.toNat

/-- A command of a host script: a host write of its word to CMD (R89). -/
def scriptCmd (i : Instr) : List HostAccess := [cmdWrite (encode i)]

/-- `wr ARGi, v` (R89). -/
def scriptWrArg (i : Fin 4) (v : Word) : List HostAccess := [.write .b64 (0x020 + 8 * i.val) v]

/-- `mem off: b0 b1 ...` (R89). -/
def scriptMem (off : Nat) : List Byte → List HostAccess
  | [] => []
  | b :: bs => .write .b8 (memWindowBase + off) (b.setWidth 64) :: scriptMem (off + 1) bs

/-- `rd R` (R89). -/
def scriptRd (r : HostReg) : List HostAccess := [.read .b64 (hostRegOffset r)]

/-- `clr.err` (R89). -/
def scriptClrErr : List HostAccess := [.write .b64 0x008 0x100]

/-- `fa.header hS` (R90). -/
def pseudoFaHeader (hs : RegIdx) : List HostAccess := scriptCmd (.faSet hs)

/-- `bf.li bD, W, V` (R90). -/
def pseudoBfLi (bd : RegIdx) (w : Imm) (v : Word) : List HostAccess :=
  scriptWrArg 0 v ++ scriptCmd (.bfNew bd w)

/-- `hdr.li hD, F, V` (R90). -/
def pseudoHdrLi (hd : RegIdx) (f : Imm) (v : Word) : List HostAccess :=
  scriptWrArg 0 v ++ scriptCmd (.hdrSet hd f)

/-- `q.li qD, F, V` (R90). -/
def pseudoQLi (qd : RegIdx) (f : Imm) (v : Word) : List HostAccess :=
  scriptWrArg 0 v ++ scriptCmd (.qSet qd f)

/-- `args2 X, Y` (R90). -/
def pseudoArgs2 (x y : Word) : List HostAccess := scriptWrArg 0 x ++ scriptWrArg 1 y

/-- `args3 X, Y, Z` (R90). -/
def pseudoArgs3 (x y z : Word) : List HostAccess := pseudoArgs2 x y ++ scriptWrArg 2 z

end Sys2Proof.Machine
end

