-- ==== Sys2Proof/Safety.lean ====
section
/-! DEFINITION. The invariants of PKC's state (10_state.md R24, R27 to R31, R36 to R40, R42), in the
terms claims use. -/

namespace Sys2Proof.Machine

/-- R30, with the width range of R29. -/
abbrev BitField.inv (b : BitField) : Prop :=
  1 ≤ b.width ∧ b.width ≤ 64 ∧ b.value < 2 ^ b.width

/-- R31, R36: one value per field of the layout, each below 2^width. -/
abbrev Header.inv (fw : FlagsWidth) (x : Header) : Prop :=
  x.fields.length = nfields x.tag ∧
  ∀ id, id < nfields x.tag → x.fields.getD id 0 < 2 ^ fieldWidth fw x.tag id

/-- R37: one entry per field of the layout, each a wildcard or a value below 2^width. -/
abbrev Predicate.inv (fw : FlagsWidth) (p : Predicate) : Prop :=
  p.fields.length = nfields p.tag ∧
  ∀ id, id < nfields p.tag → (p.fields.getD id none).getD 0 < 2 ^ fieldWidth fw p.tag id

/-- The codes a command can leave in STATUS.CODE: those of R240 without the two reserved ones
(R252) and the unreachable ConstructError (R188). -/
def reachableCodes : List Nat :=
  [0x00, 0x01, 0x02, 0x04, 0x10, 0x11, 0x12, 0x13, 0x14, 0x15]

/-- The invariant of the whole state: every step keeps it, and the reset state has it. -/
structure State.Inv (s : State) : Prop where
  /-- R6 -/
  params : s.cfg.valid
  /-- R24: bits 63:9 of STATUS are 0. -/
  statusReserved : s.status.toNat < 512
  /-- R240 -/
  statusCode : statusCode s.status ∈ reachableCodes
  /-- R29: the file has NBF registers. -/
  bfSize : s.bf.length = s.cfg.nbf
  /-- R30 -/
  bfInv : ∀ x ∈ s.bf, ∀ b ∈ x, b.inv
  /-- R31: the file has NH registers. -/
  hSize : s.h.length = s.cfg.nh
  /-- R36 -/
  hInv : ∀ x ∈ s.h, ∀ y ∈ x, y.inv s.cfg.flagsWidth
  /-- R37 -/
  qSize : s.q.length = s.cfg.nq
  qInv : ∀ x ∈ s.q, ∀ p ∈ x, p.inv s.cfg.flagsWidth
  /-- R38 -/
  fbCap : s.fb.length ≤ s.cfg.fbCapBits
  /-- R39: L2 is absent or holds an Ethernet header. -/
  l2Inv : ∀ x ∈ s.l2, x.tag = .ethernet ∧ x.inv s.cfg.flagsWidth
  /-- R39: L3 is absent or holds an Arp or IPv4 header. -/
  l3Inv : ∀ x ∈ s.l3, x.tag ≠ .ethernet ∧ x.inv s.cfg.flagsWidth
  /-- R40 -/
  faLen : s.faBuf.length = 0 ∨ s.faBuf.length = 60
  /-- R42: MEM is in its canonical form and inside MEM_SIZE. -/
  memWf : Memory.wf s.cfg.memSize s.mem

end Sys2Proof.Machine
end

