-- ==== Sys2Proof/Certificates/Slice0/Obligations.lean ====
section
/-! DEFINITION. The statements for the provers, from the numbered rules of spec/, with the words
they are written in. A result statement says the whole next state as the state before with the
named fields replaced, so it is its own frame. -/

namespace Sys2Proof.Claims

open Sys2Proof Sys2Proof.Machine

/-- The state with STATUS as a command that ends with code `code` leaves it (R24): CODE is the code,
ERR is 1 if the code is not 0 or it was 1, bits 63:9 are 0. Nothing else is changed. -/
def ended (s : State) (code : Nat) : State :=
  { s with
    status := BitVec.ofNat 64
      (code + if code = 0 ∧ s.status.getLsbD 8 = false then 0 else 256) }

/-- The five checks of R83 on a command word, over the rows of R84. -/
abbrev passesDecodeChecks (cfg : Config) (w : Word) : Prop :=
  w.toNat / 2 ^ 24 = 0 ∧
  ∃ r ∈ opcodeTable, w.toNat % 2 ^ 8 = r.opc ∧
    (r.a = none → w.toNat / 2 ^ 8 % 2 ^ 4 = 0) ∧
    (r.b = none → w.toNat / 2 ^ 12 % 2 ^ 4 = 0) ∧
    (r.imm = none → w.toNat / 2 ^ 16 % 2 ^ 8 = 0) ∧
    (∀ f ∈ r.a, w.toNat / 2 ^ 8 % 2 ^ 4 < f.size cfg) ∧
    (∀ f ∈ r.b, w.toNat / 2 ^ 12 % 2 ^ 4 < f.size cfg) ∧
    (∀ k ∈ r.imm, k.holds (w.toNat / 2 ^ 16 % 2 ^ 8))

/-- `B` is what a read of n bytes at `a` can give (R61, R273): n bytes, each one that MEM lists. A
byte that nothing has written may be any. -/
def readsAs (s : State) (a n : Nat) (B : List Byte) : Prop :=
  B.length = n ∧ ∀ k b, k < n → Memory.read? s.mem (a + k) = some b → B[k]? = some b

/-- The bit at wire position `p` of the bytes that start at MEM[a] (R9, R63). -/
def wireBit (m : Memory) (a p : Nat) : Option Bool :=
  (Memory.read? m (a + p / 8)).map fun b => b.getLsbD (7 - p % 8)

/-- The bit at position `p` of a byte sequence, 0 beyond its end (R9, R161). -/
def byteSeqBit (B : List Byte) (p : Nat) : Bool := (B.getD (p / 8) 0).getLsbD (7 - p % 8)

/-- `m` is `m0` with n bytes at `a` stored, and no other byte changed. -/
def storedOnly (m0 m : Memory) (a n : Nat) : Prop :=
  (∀ k, k < n → (Memory.read? m (a + k)).isSome = true) ∧
  ∀ c, ¬ (a ≤ c ∧ c < a + n) → Memory.read? m c = Memory.read? m0 c

/-- Header `x` is the one DECODE reads from `B` for tag `t` (R161): every bit of every field is the
input's at the field's offset, or 0 beyond the input's end. -/
def decodesTo (fw : FlagsWidth) (t : Tag) (B : List Byte) (x : Header) : Prop :=
  x.tag = t ∧ x.fields.length = nfields t ∧
  ∀ id, id < nfields t →
    x.fields.getD id 0 < 2 ^ fieldWidth fw t id ∧
    ∀ p, p < fieldWidth fw t id →
      (x.fields.getD id 0).testBit (fieldWidth fw t id - 1 - p) =
        byteSeqBit B (fieldOffset fw t id + p)

/-- The CREATE command of a protocol (R162, R164, R166). -/
def createOf : Tag → RegIdx → Instr
  | .ethernet => .ethCreate
  | .arp => .arpCreate
  | .ipv4 => .ip4Create

/-- The PARSE command of a protocol (R163, R165, R167). -/
def parseOf : Tag → RegIdx → Instr
  | .ethernet => .ethParse
  | .arp => .arpParse
  | .ipv4 => .ip4Parse

/-- The "raised by" column of R240, for codes other than OK and IllegalCommand. -/
def raisedBy : Nat → List String
  | 0x01 => ["BF.NEW", "BF.BITS", "BF.VAL", "FB.APPF", "HDR.SET", "Q.SET"]
  | 0x02 => ["FB.SLY", "FB.TOB"]
  | 0x03 => ["FA.BUILD"]
  | 0x04 => ["HDR.UNWRAP", "ETH.CREATE", "ARP.CREATE", "IP4.CREATE", "Q.MATCH", "Q.MATCHFA"]
  | 0x11 => ["BF.BITS", "BF.VAL", "BF.EQ", "FB.APPF", "HDR.SET", "HDR.GET", "HDR.COPY",
      "HDR.UNWRAP", "ETH.CREATE", "ARP.CREATE", "IP4.CREATE", "FA.SET", "Q.SET", "Q.ANY",
      "Q.MATCH", "Q.MATCHFA"]
  | 0x12 => ["HDR.SET", "HDR.GET", "Q.SET", "Q.ANY"]
  | 0x13 => ["FB.APPB", "FB.SLB", "FB.SLY", "FB.TOB", "ETH.CREATE", "ARP.CREATE", "IP4.CREATE",
      "ETH.PARSE", "ARP.PARSE", "IP4.PARSE", "FA.PARSE", "FA.READ"]
  | 0x14 => ["FB.APPB", "FB.APPF"]
  | 0x15 => ["FA.GET", "FA.BUILD"]
  | _ => []

end Sys2Proof.Claims

open Sys2Proof Sys2Proof.Machine Sys2Proof.Claims

/-! ### Bits, bytes and layouts -/

/-- R8: bitsOf and valOf undo each other, at every width. -/
def Obligations.BitsOfAndValOfUndoEachOther : Prop :=
  (∀ w v : Nat, v < 2 ^ w → (bitsOf v w).length = w ∧ valOf (bitsOf v w) = v) ∧
  ∀ S : List Bool, valOf S < 2 ^ S.length ∧ bitsOf (valOf S) S.length = S

/-- R9: bytesToBits and bitsToBytes undo each other, on whole bytes. -/
def Obligations.BytesAndBitsUndoEachOther : Prop :=
  (∀ B : List Byte, bitsToBytes (bytesToBits B) = B) ∧
  ∀ S : List Bool, S.length % 8 = 0 → bytesToBits (bitsToBytes S) = S

/-- R146 (with R33 to R35): the widths of the layouts, and that the fields tile the header. -/
def Obligations.FieldsTileTheHeader : Prop :=
  ∀ (fw : FlagsWidth) (t : Tag),
    (List.range (nfields t)).map (fieldWidth fw t) =
      (match t with
        | .ethernet => [48, 48, 16]
        | .arp => [16, 16, 8, 8, 16, 48, 32, 48, 32]
        | .ipv4 => [4, 4, 8, 16, 16, fw.bits, 16 - fw.bits, 8, 8, 16, 32, 32]) ∧
    fieldOffset fw t 0 = 0 ∧
    (∀ id, id + 1 < nfields t →
      fieldOffset fw t (id + 1) = fieldOffset fw t id + fieldWidth fw t id) ∧
    fieldOffset fw t (nfields t - 1) + fieldWidth fw t (nfields t - 1) = 8 * headerSize t ∧
    8 * headerSize t = (match t with
      | .ethernet => 112
      | .arp => 224
      | .ipv4 => 160)

/-! ### Encoding -/

/-- R80, R84: the decoder gives back every instruction from its word, with every operand at every
value the encoding admits. -/
def Obligations.DecodeOfEncodeIsTheInstruction : Prop :=
  ∀ i : Instr, decode (encode i) = .ok i

/-- R80, R84: an instruction has one word. -/
def Obligations.EncodeOfDecodeIsTheWord : Prop :=
  ∀ (w : Word) (i : Instr), decode w = .ok i → encode i = w

/-- R85: a word selects a row exactly when its match and mask say so. -/
def Obligations.MatchAndMaskSelectTheRow : Prop :=
  ∀ (w : Word) (r : OpcodeRow), r ∈ opcodeTable →
    ((∃ i, decode w = .ok i ∧ i.mnemonic = r.mnemonic) ↔
      w &&& (0xFFFFFFFFFF0000FF#64 ||| (if r.a = none then 0xF00#64 else 0#64) |||
        (if r.b = none then 0xF000#64 else 0#64) |||
        (if r.imm = none then 0xFF0000#64 else 0#64)) = BitVec.ofNat 64 r.opc)

/-- R83: the words that decode to a well-formed instruction are those that pass the five checks. -/
def Obligations.LegalWordsAreThoseThatPassTheChecks : Prop :=
  ∀ (cfg : Config) (w : Word),
    (∃ i, decode w = .ok i ∧ i.wellFormed cfg = true) ↔ passesDecodeChecks cfg w

/-- R86 (R83): a CMD write of a word that fails a check stores the word, ends with IllegalCommand and
changes nothing else; and an instruction whose index or IMM is illegal does the same when run. -/
def Obligations.IllegalWordRaisesIllegalCommandOnly : Prop :=
  (∀ (s : State) (w : Word) (rest : List HostAccess),
    s.pending = .write .b64 0x010 w :: rest → ¬ passesDecodeChecks s.cfg w →
      step s = .next (ended { s with pending := rest, cmd := w } 0x10)) ∧
  ∀ (s : State) (i : Instr), i.wellFormed s.cfg = false → exec i s = .next (ended s 0x10)

/-- Words written out from the spec's encodings (R88; 95_test_vectors.md section 2). -/
def Obligations.ListedWordsDecodeAsListed : Prop :=
  decode 0x0000000000000000#64 = .ok .nop ∧
  decode 0x0000000000100310#64 = .ok (.bfNew 3 16) ∧
  decode 0x0000000000000022#64 = .ok (.fbAppf 0) ∧
  decode 0x0000000000001234#64 = .ok (.hdrCopy 2 1) ∧
  decode 0x0000000000020030#64 = .ok (.hdrInit 0 2) ∧
  decode 0x0000000000000143#64 = .ok (.arpParse 1) ∧
  decode 0x0000000000030052#64 = .ok (.faGet 0 3) ∧
  decode 0x0000000000040061#64 = .ok (.qSet 0 4) ∧
  decode 0x0000000000002163#64 = .ok (.qMatch 1 2) ∧
  decode 0x0000000001000000#64 = .error .reservedBits ∧
  decode 0x0000000000000001#64 = .error .unknownOpcode ∧
  decode 0x0000000000000150#64 = .error .unusedField

/-! ### Steps and the host window -/

/-- R25: a step that takes a CMD write stores the word and runs the instruction it decodes to. -/
def Obligations.StepRunsTheDecodedCommand : Prop :=
  ∀ (s : State) (w : Word) (rest : List HostAccess) (i : Instr),
    s.pending = .write .b64 0x010 w :: rest → decode w = .ok i →
      step s = exec i { s with pending := rest, cmd := w }

/-- R22, R276: a host write of ARGi stores the value and changes nothing else. -/
def Obligations.HostWriteOfArgStoresTheValue : Prop :=
  ∀ (s : State) (v : Word) (rest : List HostAccess),
    (s.pending = .write .b64 0x020 v :: rest →
      step s = .next { s with pending := rest, arg0 := v }) ∧
    (s.pending = .write .b64 0x028 v :: rest →
      step s = .next { s with pending := rest, arg1 := v }) ∧
    (s.pending = .write .b64 0x030 v :: rest →
      step s = .next { s with pending := rest, arg2 := v }) ∧
    (s.pending = .write .b64 0x038 v :: rest →
      step s = .next { s with pending := rest, arg3 := v })

/-- R70 (R24): writes to read-only registers are ignored, and a write to STATUS changes only ERR. -/
def Obligations.HostWriteOfReadOnlyRegisterIsIgnored : Prop :=
  ∀ (s : State) (v : Word) (rest : List HostAccess),
    (∀ off ∈ [0x040, 0x048, 0x050, 0x058], s.pending = .write .b64 off v :: rest →
      step s = .next { s with pending := rest }) ∧
    (s.pending = .write .b64 0x008 v :: rest →
      ∃ st : Word, step s = .next { s with pending := rest, status := st } ∧
        st.getLsbD 8 = (s.status.getLsbD 8 && !v.getLsbD 8) ∧
        ∀ j, j ≠ 8 → st.getLsbD j = s.status.getLsbD j)

/-- R67, R71: a host read of a register returns its value and has no side effect. (`rdata` holds
what the host got: log entry 5.) -/
def Obligations.HostReadOfRegisterReturnsItsValue : Prop :=
  ∀ (s : State) (rest : List HostAccess),
    ∀ p ∈ [((0x000 : Nat), (0 : Word)), (0x008, s.status), (0x010, s.cmd), (0x020, s.arg0),
        (0x028, s.arg1), (0x030, s.arg2), (0x038, s.arg3), (0x040, s.res0), (0x048, s.res1),
        (0x050, BitVec.ofNat 64 s.fb.length), (0x058, BitVec.ofNat 64 s.faBuf.length)],
      s.pending = .read .b64 p.1 :: rest →
        step s = .next { s with pending := rest, rdata := p.2 }

/-- R68, R276, R273: an 8-bit access at window offset 0x1000 + k is MEM[k]. A write stores the byte
there and nowhere else; a read returns the byte, or some byte when nothing has written it. -/
def Obligations.HostAccessesMemoryByBytes : Prop :=
  ∀ (s : State) (k : Nat) (v : Word) (rest : List HostAccess), k < s.cfg.memSize →
    (s.pending = .write .b8 (0x1000 + k) v :: rest →
      ∃ m : Memory, step s = .next { s with pending := rest, mem := m } ∧
        Memory.read? m k = some (v.setWidth 8) ∧
        ∀ a, a ≠ k → Memory.read? m a = Memory.read? s.mem a) ∧
    (s.pending = .read .b8 (0x1000 + k) :: rest →
      ∃ (b : Byte) (d : Nat), (∀ c, Memory.read? s.mem k = some c → b = c) ∧
        step s = .next { s with pending := rest, draws := d, rdata := b.setWidth 64 })

/-- R69 (R68): accesses of another width, unaligned, reserved or unmapped are refused. -/
def Obligations.HostAccessOutsideTheWindowMapIsRefused : Prop :=
  ∀ (s : State) (a : HostAccess) (size : AccessSize) (off : Nat) (v : Word)
    (rest : List HostAccess),
    s.pending = a :: rest → (a = .read size off ∨ a = .write size off v) →
      ((off < 0x1000 ∧ size ≠ .b64) ∨
        (off < 0x1000 ∧ off % 8 ≠ 0) ∨
        (0x018 ≤ off ∧ off < 0x020) ∨
        (0x060 ≤ off ∧ off < 0x1000) ∨
        (0x1000 ≤ off ∧ size ≠ .b8) ∨
        0x1000 + s.cfg.memSize ≤ off) →
      ∃ r : Refusal, step s = .refused r

/-- R272 (R26): a CTRL write with bit 0 = 1 resets everything but MEM, one with bit 0 = 0 does
nothing. Of the model's own fields (log entries 3, 5) it says nothing. -/
def Obligations.SoftResetClearsEverythingButMemory : Prop :=
  ∀ (s : State) (v : Word) (rest : List HostAccess),
    s.pending = .write .b64 0x000 v :: rest →
      (v.getLsbD 0 = true → ∃ (d : Nat) (r : Word), step s = .next
        { arg0 := 0, arg1 := 0, arg2 := 0, arg3 := 0, res0 := 0, res1 := 0, status := 0, cmd := 0,
          bf := List.replicate s.cfg.nbf none, h := List.replicate s.cfg.nh none,
          q := List.replicate s.cfg.nq none, fb := [], l2 := none, l3 := none, faBuf := [],
          mem := s.mem, cfg := s.cfg, draws := d, pending := rest, rdata := r }) ∧
      (v.getLsbD 0 = false → step s = .next { s with pending := rest })

/-- R270, R271: what a hardware reset leaves, as a step and as the model's reset state. MEM is
unwritten. Two clauses are the model's and no rule's: the host's later accesses stay (`pending :=
rest`: log entry 9), and `State.reset` is the instance with the default parameters of R6 (log entry
2). Of the model's own fields (log entries 3, 4, 5) the reset state's are not named. -/
def Obligations.HardwareResetGivesTheResetValues : Prop :=
  (∀ (s : State) (rest : List HostAccess), s.pending = .hardwareReset :: rest →
    ∃ (d : Nat) (r : Word), step s = .next
      { arg0 := 0, arg1 := 0, arg2 := 0, arg3 := 0, res0 := 0, res1 := 0, status := 0, cmd := 0,
        bf := List.replicate s.cfg.nbf none, h := List.replicate s.cfg.nh none,
        q := List.replicate s.cfg.nq none, fb := [], l2 := none, l3 := none, faBuf := [],
        mem := [], cfg := s.cfg, draws := d, pending := rest, rdata := r }) ∧
  ∃ (d : Nat) (p : List HostAccess) (r : Word), State.reset =
    { arg0 := 0, arg1 := 0, arg2 := 0, arg3 := 0, res0 := 0, res1 := 0, status := 0, cmd := 0,
      bf := List.replicate 8 none, h := List.replicate 4 none, q := List.replicate 4 none, fb := [],
      l2 := none, l3 := none, faBuf := [], mem := [], cfg := Config.default, draws := d,
      pending := p, rdata := r }

/-- From R73: a host read right after a host write at the same offset returns the value written, for
MEM bytes and ARG registers. That what the host got is in `rdata` (log entry 5), and that a byte is
the low 8 bits of the word written and is zero-extended in `rdata` (log entry 8), are the model's
choices. -/
def Obligations.HostReadRightAfterWriteOfArgOrByteReturnsIt : Prop :=
  ∀ (s : State) (v : Word) (rest : List HostAccess),
    (∀ k, k < s.cfg.memSize →
      s.pending = .write .b8 (0x1000 + k) v :: .read .b8 (0x1000 + k) :: rest →
      ∃ t, core.run 2 s = .next t ∧ t.rdata = (v.setWidth 8).setWidth 64 ∧ t.pending = rest) ∧
    (∀ off ∈ [0x020, 0x028, 0x030, 0x038],
      s.pending = .write .b64 off v :: .read .b64 off :: rest →
      ∃ t, core.run 2 s = .next t ∧ t.rdata = v ∧ t.pending = rest)

/-! ### Rules of the whole machine -/

/-- R279 (R246): every command ends, in every state, and a step only ever refuses a host access that
is no command. -/
def Obligations.EveryCommandEnds : Prop :=
  (∀ (i : Instr) (s : State), ∃ t, exec i s = .next t) ∧
  ∀ (s : State) (w : Word) (rest : List HostAccess),
    s.pending = .write .b64 0x010 w :: rest → ∃ t, step s = .next t ∧ t.pending = rest

/-- R243: a command that ends with a code other than OK has written STATUS and nothing else. The one
exception it names, FA.BUILD with LEGACY_EMPTY_BUILD and no L2, ends OK. -/
def Obligations.ErrorsWriteOnlyStatus : Prop :=
  (∀ (i : Instr) (s t : State), exec i s = .next t → t.status.toNat % 256 ≠ 0 →
    t = { s with status := t.status }) ∧
  ∀ (s : State) (x : Header), s.cfg.legacyEmptyBuild = true → s.l2 = none → s.l3 = some x →
    ∃ t, exec .faBuild s = .next t ∧ t.status.toNat % 256 = 0 ∧ t.faBuf = []

/-- R244: a command sets ERR when its code is not OK and never clears it; only a STATUS write with
bit 8, a soft reset or a hardware reset does. -/
def Obligations.ErrBitIsSticky : Prop :=
  (∀ (i : Instr) (s t : State), exec i s = .next t →
    t.status.getLsbD 8 = (s.status.getLsbD 8 || decide (t.status.toNat % 256 ≠ 0))) ∧
  ∀ s t : State, step s = .next t → s.status.getLsbD 8 = true → t.status.getLsbD 8 = false →
    (∃ v rest, s.pending = .write .b64 0x008 v :: rest ∧ v.getLsbD 8 = true) ∨
    (∃ v rest, s.pending = .write .b64 0x000 v :: rest ∧ v.getLsbD 0 = true) ∨
    ∃ rest, s.pending = .hardwareReset :: rest

/-- R240 (R252), R242: every command ends with OK, IllegalCommand or a code whose row names it; the
decode checks, and only they, give IllegalCommand; a matcher command raises UnwrapHeaderError only
when MATCH_TAG_MISMATCH = Unwrap. -/
def Obligations.CodesComeOnlyFromTheirCommands : Prop :=
  ∀ (i : Instr) (s t : State), exec i s = .next t →
    (t.status.toNat % 256 = 0 ∨ t.status.toNat % 256 = 0x10 ∨
      i.mnemonic ∈ raisedBy (t.status.toNat % 256)) ∧
    (t.status.toNat % 256 = 0x10 ↔ i.wellFormed s.cfg = false) ∧
    (t.status.toNat % 256 = 0x04 → i.mnemonic ∈ ["Q.MATCH", "Q.MATCHFA"] →
      s.cfg.tagMismatch = .unwrap)

/-- R45 (R22, R209): which commands write which state; no command writes an ARG register, CMD, the
parameters or the host's accesses. -/
def Obligations.CommandsWriteOnlyTheirState : Prop :=
  ∀ (i : Instr) (s t : State), exec i s = .next t →
    (t.arg0 = s.arg0 ∧ t.arg1 = s.arg1 ∧ t.arg2 = s.arg2 ∧ t.arg3 = s.arg3 ∧ t.cmd = s.cmd ∧
      t.cfg = s.cfg ∧ t.pending = s.pending ∧ t.rdata = s.rdata) ∧
    (t.res0 ≠ s.res0 → i.mnemonic ∈ ["BF.BITS", "BF.VAL", "BF.EQ", "FB.SLB", "FB.SLY", "FB.TOB",
      "HDR.GET", "HDR.TAG", "ETH.CREATE", "ARP.CREATE", "IP4.CREATE", "FA.READ", "Q.MATCH",
      "Q.MATCHFA"]) ∧
    (t.res1 ≠ s.res1 → i.mnemonic ∈ ["BF.BITS", "FB.SLB"]) ∧
    (t.fb ≠ s.fb → i.mnemonic ∈ ["FB.CLR", "FB.APPB", "FB.APPF"]) ∧
    (t.faBuf ≠ s.faBuf → i.mnemonic ∈ ["FA.NEW", "FA.PARSE", "FA.BUILD"]) ∧
    (t.bf ≠ s.bf → i.mnemonic ∈ ["BF.NEW"]) ∧
    (t.h ≠ s.h → i.mnemonic ∈ ["HDR.INIT", "HDR.SET", "HDR.COPY", "ETH.PARSE", "ARP.PARSE",
      "IP4.PARSE", "FA.GET"]) ∧
    (t.q ≠ s.q → i.mnemonic ∈ ["Q.INIT", "Q.SET", "Q.ANY"]) ∧
    (t.l2 ≠ s.l2 ∨ t.l3 ≠ s.l3 → i.mnemonic ∈ ["FA.NEW", "FA.SET", "FA.PARSE"]) ∧
    (t.mem ≠ s.mem → i.mnemonic ∈ ["ETH.CREATE", "ARP.CREATE", "IP4.CREATE", "FB.SLY", "FB.TOB",
      "FA.READ"])

/-- R30, R36 to R40, R42, R24: every step keeps the invariant of the state. -/
def Obligations.EveryStepKeepsTheInvariant : Prop :=
  ∀ s t : State, s.Inv → step s = .next t → t.Inv

/-- R270: the state after reset has the invariant, whatever the parameters. -/
def Obligations.ResetStateHasTheInvariant : Prop :=
  State.reset.Inv ∧ ∀ cfg : Config, cfg.valid → (State.resetWith cfg).Inv

/-- R271: no step, a reset among them, changes the parameters. -/
def Obligations.NoStepChangesTheParameters : Prop :=
  ∀ s t : State, step s = .next t → t.cfg = s.cfg

/-! ### Commands without operands -/

/-- R220, R120, R180: NOP, FB.CLR and FA.NEW. -/
def Obligations.NopFbClrAndFaNewComplete : Prop :=
  ∀ s : State,
    exec .nop s = .next (ended s 0) ∧
    exec .fbClr s = .next (ended { s with fb := [] } 0) ∧
    exec .faNew s = .next (ended { s with l2 := none, l3 := none, faBuf := [] } 0)

/-! ### BitField commands -/

/-- R101 (R100): BF.NEW builds a legal BitField from ARG0, and is LengthError otherwise. -/
def Obligations.BfNewBuildsLegalBitFields : Prop :=
  ∀ (s : State) (bd : RegIdx) (width : Imm), bd.val < s.cfg.nbf →
    (1 ≤ width.val → width.val ≤ 64 → s.arg0.toNat < 2 ^ width.val →
      exec (.bfNew bd width) s =
        .next (ended { s with bf := s.bf.set bd.val (some ⟨width.val, s.arg0.toNat⟩) } 0)) ∧
    (width.val = 0 ∨ 64 < width.val ∨ 2 ^ width.val ≤ s.arg0.toNat →
      exec (.bfNew bd width) s = .next (ended s 0x01))

/-- R102, R103: BF.BITS and BF.VAL give the value, BF.BITS its width too. -/
def Obligations.BfBitsAndBfValGiveTheValue : Prop :=
  ∀ (s : State) (bs : RegIdx), bs.val < s.cfg.nbf →
    (s.bf[bs.val]? = some none →
      exec (.bfBits bs) s = .next (ended s 0x11) ∧ exec (.bfVal bs) s = .next (ended s 0x11)) ∧
    ∀ w v : Nat, s.bf[bs.val]? = some (some ⟨w, v⟩) →
      (2 ^ w ≤ v →
        exec (.bfBits bs) s = .next (ended s 0x01) ∧ exec (.bfVal bs) s = .next (ended s 0x01)) ∧
      (v < 2 ^ w →
        exec (.bfBits bs) s =
          .next (ended { s with res0 := BitVec.ofNat 64 v, res1 := BitVec.ofNat 64 w } 0) ∧
        exec (.bfVal bs) s = .next (ended { s with res0 := BitVec.ofNat 64 v } 0))

/-- R104: BF.EQ compares the values and not the widths. -/
def Obligations.BfEqComparesValuesOnly : Prop :=
  ∀ (s : State) (ba bb : RegIdx), ba.val < s.cfg.nbf → bb.val < s.cfg.nbf →
    (s.bf[ba.val]? = some none ∨
        (∃ x, s.bf[ba.val]? = some (some x)) ∧ s.bf[bb.val]? = some none →
      exec (.bfEq ba bb) s = .next (ended s 0x11)) ∧
    ∀ wa va wb vb : Nat,
      s.bf[ba.val]? = some (some ⟨wa, va⟩) → s.bf[bb.val]? = some (some ⟨wb, vb⟩) →
      exec (.bfEq ba bb) s = .next (ended { s with res0 := if va = vb then 1 else 0 } 0)

/-- R105: constructing a legal BitField and decoding it gives the value back, as a host script. -/
def Obligations.BitFieldRoundTripAsAScript : Prop :=
  ∀ (s : State) (width : Imm) (value : Word) (rest : List HostAccess), s.Inv →
    1 ≤ width.val → width.val ≤ 64 → value.toNat < 2 ^ width.val →
    s.pending = scriptWrArg 0 value ++ scriptCmd (.bfNew 0 width) ++ scriptCmd (.bfVal 0) ++ rest →
    ∃ t, core.run 3 s = .next t ∧ t.status.toNat % 256 = 0 ∧ t.res0 = value ∧ t.pending = rest

/-! ### FrameBuffer commands -/

/-- R121: FB.APPB appends the bytes of a MEM range, most significant bit first. -/
def Obligations.FbAppbAppendsTheBytes : Prop :=
  ∀ s : State,
    (s.cfg.memSize < s.arg0.toNat + s.arg1.toNat → exec .fbAppb s = .next (ended s 0x13)) ∧
    (s.arg0.toNat + s.arg1.toNat ≤ s.cfg.memSize →
      (s.cfg.fbCapBits < s.fb.length + 8 * s.arg1.toNat → exec .fbAppb s = .next (ended s 0x14)) ∧
      (s.fb.length + 8 * s.arg1.toNat ≤ s.cfg.fbCapBits →
        ∃ (B : List Byte) (d : Nat), readsAs s s.arg0.toNat s.arg1.toNat B ∧
          exec .fbAppb s =
            .next (ended { s with fb := s.fb ++ bytesToBits B, draws := d } 0)))

/-- R122: FB.APPF appends a BitField's padded bits: bit i of the string is bit w-1-i of the value. -/
def Obligations.FbAppfAppendsThePaddedBits : Prop :=
  ∀ (s : State) (bs : RegIdx), bs.val < s.cfg.nbf →
    (s.bf[bs.val]? = some none → exec (.fbAppf bs) s = .next (ended s 0x11)) ∧
    ∀ w v : Nat, s.bf[bs.val]? = some (some ⟨w, v⟩) →
      (2 ^ w ≤ v → exec (.fbAppf bs) s = .next (ended s 0x01)) ∧
      (v < 2 ^ w → s.cfg.fbCapBits < s.fb.length + w →
        exec (.fbAppf bs) s = .next (ended s 0x14)) ∧
      (v < 2 ^ w → s.fb.length + w ≤ s.cfg.fbCapBits →
        ∃ S : List Bool, S.length = w ∧ (∀ i, i < w → S[i]? = some (v.testBit (w - 1 - i))) ∧
          exec (.fbAppf bs) s = .next (ended { s with fb := s.fb ++ S } 0))

/-- R123: FB.SLB returns the bits of a range, string position i at RES0 bit RES1-1-i. -/
def Obligations.FbSlbReturnsTheBits : Prop :=
  ∀ s : State,
    (¬ (s.arg0.toNat ≤ s.arg1.toNat ∧ s.arg1.toNat ≤ s.fb.length) →
      exec .fbSlb s = .next (ended s 0x13)) ∧
    (s.arg0.toNat ≤ s.arg1.toNat → s.arg1.toNat ≤ s.fb.length →
      (64 < s.arg1.toNat - s.arg0.toNat → exec .fbSlb s = .next (ended s 0x13)) ∧
      (s.arg1.toNat - s.arg0.toNat ≤ 64 →
        ∃ r : Word,
          exec .fbSlb s = .next (ended { s with res0 := r, res1 := s.arg1 - s.arg0 } 0) ∧
          (∀ i, i < s.arg1.toNat - s.arg0.toNat →
            s.fb[s.arg0.toNat + i]? = some (r.getLsbD (s.arg1.toNat - s.arg0.toNat - 1 - i))) ∧
          ∀ j, s.arg1.toNat - s.arg0.toNat ≤ j → r.getLsbD j = false))

/-- R124: FB.SLY stores the bytes of a bit range at ARG2 and nowhere else. -/
def Obligations.FbSlyStoresTheBytesOfTheRange : Prop :=
  ∀ s : State,
    (¬ (s.arg0.toNat ≤ s.arg1.toNat ∧ s.arg1.toNat ≤ s.fb.length) →
      exec .fbSly s = .next (ended s 0x13)) ∧
    (s.arg0.toNat ≤ s.arg1.toNat → s.arg1.toNat ≤ s.fb.length →
      ((s.arg1.toNat - s.arg0.toNat) % 8 ≠ 0 → exec .fbSly s = .next (ended s 0x02)) ∧
      ∀ n, s.arg1.toNat - s.arg0.toNat = 8 * n →
        (s.cfg.memSize < s.arg2.toNat + n → exec .fbSly s = .next (ended s 0x13)) ∧
        (s.arg2.toNat + n ≤ s.cfg.memSize →
          ∃ m : Memory,
            exec .fbSly s = .next (ended { s with mem := m, res0 := BitVec.ofNat 64 n } 0) ∧
            storedOnly s.mem m s.arg2.toNat n ∧
            ∀ p, p < 8 * n → wireBit m s.arg2.toNat p = s.fb[s.arg0.toNat + p]?))

/-- R125: FB.TOB stores the bytes of the whole buffer at ARG0 and nowhere else. -/
def Obligations.FbTobStoresTheWholeBuffer : Prop :=
  ∀ s : State,
    (s.fb.length % 8 ≠ 0 → exec .fbTob s = .next (ended s 0x02)) ∧
    ∀ n, s.fb.length = 8 * n →
      (s.cfg.memSize < s.arg0.toNat + n → exec .fbTob s = .next (ended s 0x13)) ∧
      (s.arg0.toNat + n ≤ s.cfg.memSize →
        ∃ m : Memory,
          exec .fbTob s = .next (ended { s with mem := m, res0 := BitVec.ofNat 64 n } 0) ∧
          storedOnly s.mem m s.arg0.toNat n ∧
          ∀ p, p < 8 * n → wireBit m s.arg0.toNat p = s.fb[p]?)

/-- R127: appending a BitField and slicing the same range gives it back. -/
def Obligations.AppendThenSliceIsTheField : Prop :=
  ∀ (s : State) (b : RegIdx) (w v : Nat), s.cfg.valid → b.val < s.cfg.nbf →
    s.bf[b.val]? = some (some ⟨w, v⟩) → 1 ≤ w → w ≤ 64 → v < 2 ^ w →
    s.fb.length + w ≤ s.cfg.fbCapBits →
    ∃ t u, exec (.fbAppf b) s = .next t ∧
      exec .fbSlb { t with
        arg0 := BitVec.ofNat 64 s.fb.length, arg1 := BitVec.ofNat 64 (s.fb.length + w) } =
          .next u ∧
      u.status.toNat % 256 = 0 ∧ u.res0.toNat = v ∧ u.res1.toNat = w

/-! ### Header register commands -/

/-- R140, R143: HDR.INIT gives a header of zeros; HDR.TAG reads the tag code, 0 for Empty. -/
def Obligations.HdrInitGivesZerosAndHdrTagReadsTheTag : Prop :=
  ∀ (s : State) (r : RegIdx), r.val < s.cfg.nh →
    (exec (.hdrInit r 1) s =
      .next (ended { s with h := s.h.set r.val (some ⟨.ethernet, [0, 0, 0]⟩) } 0)) ∧
    (exec (.hdrInit r 2) s =
      .next (ended { s with h := s.h.set r.val (some ⟨.arp, [0, 0, 0, 0, 0, 0, 0, 0, 0]⟩) } 0)) ∧
    (exec (.hdrInit r 3) s =
      .next (ended { s with
        h := s.h.set r.val (some ⟨.ipv4, [0, 0, 0, 0, 0, 0, 0, 0, 0, 0, 0, 0]⟩) } 0)) ∧
    (s.h[r.val]? = some none → exec (.hdrTag r) s = .next (ended { s with res0 := 0 } 0)) ∧
    ∀ x, s.h[r.val]? = some (some x) →
      exec (.hdrTag r) s = .next (ended { s with res0 := match x.tag with
        | .ethernet => 1
        | .arp => 2
        | .ipv4 => 3 } 0)

/-- R141: HDR.SET stores ARG0 in one field, with its checks in order. -/
def Obligations.HdrSetStoresOneField : Prop :=
  ∀ (s : State) (hd : RegIdx) (field : Imm), hd.val < s.cfg.nh →
    (s.h[hd.val]? = some none → exec (.hdrSet hd field) s = .next (ended s 0x11)) ∧
    ∀ x, s.h[hd.val]? = some (some x) →
      (nfields x.tag ≤ field.val → exec (.hdrSet hd field) s = .next (ended s 0x12)) ∧
      (field.val < nfields x.tag →
        (2 ^ fieldWidth s.cfg.flagsWidth x.tag field.val ≤ s.arg0.toNat →
          exec (.hdrSet hd field) s = .next (ended s 0x01)) ∧
        (s.arg0.toNat < 2 ^ fieldWidth s.cfg.flagsWidth x.tag field.val →
          exec (.hdrSet hd field) s =
            .next (ended { s with
              h := s.h.set hd.val (some ⟨x.tag, x.fields.set field.val s.arg0.toNat⟩) } 0)))

/-- R142: HDR.GET reads one field. -/
def Obligations.HdrGetReadsOneField : Prop :=
  ∀ (s : State) (hs : RegIdx) (field : Imm), hs.val < s.cfg.nh →
    (s.h[hs.val]? = some none → exec (.hdrGet hs field) s = .next (ended s 0x11)) ∧
    ∀ x, s.h[hs.val]? = some (some x) →
      (nfields x.tag ≤ field.val → exec (.hdrGet hs field) s = .next (ended s 0x12)) ∧
      ∀ v, field.val < nfields x.tag → x.fields[field.val]? = some v →
        exec (.hdrGet hs field) s = .next (ended { s with res0 := BitVec.ofNat 64 v } 0)

/-- R144: HDR.COPY copies the value. -/
def Obligations.HdrCopyCopiesTheValue : Prop :=
  ∀ (s : State) (hd hs : RegIdx), hd.val < s.cfg.nh → hs.val < s.cfg.nh →
    (s.h[hs.val]? = some none → exec (.hdrCopy hd hs) s = .next (ended s 0x11)) ∧
    ∀ x, s.h[hs.val]? = some (some x) →
      exec (.hdrCopy hd hs) s = .next (ended { s with h := s.h.set hd.val (some x) } 0)

/-- R145: HDR.UNWRAP checks the variant and changes nothing. -/
def Obligations.HdrUnwrapChecksTheVariant : Prop :=
  ∀ (s : State) (hs : RegIdx) (tag : Imm) (t : Tag), hs.val < s.cfg.nh →
    (tag.val, t) ∈ [(1, Tag.ethernet), (2, Tag.arp), (3, Tag.ipv4)] →
    (s.h[hs.val]? = some none → exec (.hdrUnwrap hs tag) s = .next (ended s 0x11)) ∧
    ∀ x, s.h[hs.val]? = some (some x) →
      (x.tag ≠ t → exec (.hdrUnwrap hs tag) s = .next (ended s 0x04)) ∧
      (x.tag = t → exec (.hdrUnwrap hs tag) s = .next (ended s 0))

/-! ### Codec commands -/

/-- R162, R164, R166 (R160, R63): ETH.CREATE, ARP.CREATE and IP4.CREATE store the header's bytes at
ARG0 and nowhere else: every field at its bit offset, most significant bit first. -/
def Obligations.CreateStoresTheHeaderBytes : Prop :=
  ∀ (s : State) (t : Tag) (hs : RegIdx), hs.val < s.cfg.nh →
    (s.h[hs.val]? = some none → exec (createOf t hs) s = .next (ended s 0x11)) ∧
    ∀ x, s.h[hs.val]? = some (some x) →
      (x.tag ≠ t → exec (createOf t hs) s = .next (ended s 0x04)) ∧
      (x.tag = t →
        (s.cfg.memSize < s.arg0.toNat + headerSize t →
          exec (createOf t hs) s = .next (ended s 0x13)) ∧
        (s.arg0.toNat + headerSize t ≤ s.cfg.memSize →
          ∃ m : Memory,
            exec (createOf t hs) s =
              .next (ended { s with mem := m, res0 := BitVec.ofNat 64 (headerSize t) } 0) ∧
            storedOnly s.mem m s.arg0.toNat (headerSize t) ∧
            ∀ id p, id < nfields t → p < fieldWidth s.cfg.flagsWidth t id →
              wireBit m s.arg0.toNat (fieldOffset s.cfg.flagsWidth t id + p) =
                some ((x.fields.getD id 0).testBit (fieldWidth s.cfg.flagsWidth t id - 1 - p))))

/-- R163, R165, R167 (R161): ETH.PARSE, ARP.PARSE and IP4.PARSE give the header at the fixed bit
offsets of the bytes read, with 0 for what is missing. -/
def Obligations.ParseReadsTheHeader : Prop :=
  ∀ (s : State) (t : Tag) (hd : RegIdx), hd.val < s.cfg.nh →
    (s.cfg.memSize < s.arg0.toNat + s.arg1.toNat →
      exec (parseOf t hd) s = .next (ended s 0x13)) ∧
    (s.arg0.toNat + s.arg1.toNat ≤ s.cfg.memSize →
      ∃ (B : List Byte) (x : Header) (d : Nat),
        readsAs s s.arg0.toNat s.arg1.toNat B ∧ decodesTo s.cfg.flagsWidth t B x ∧
        exec (parseOf t hd) s =
          .next (ended { s with h := s.h.set hd.val (some x), draws := d } 0))

/-- R168: creating a header and parsing its bytes gives it back, field for field. -/
def Obligations.CreateThenParseIsTheHeader : Prop :=
  ∀ (s : State) (hh hk : RegIdx) (x : Header) (off : Word), s.Inv →
    hh.val < s.cfg.nh → hk.val < s.cfg.nh → s.h[hh.val]? = some (some x) →
    off.toNat + headerSize x.tag ≤ s.cfg.memSize →
    ∃ t u, exec (createOf x.tag hh) { s with arg0 := off } = .next t ∧
      exec (parseOf x.tag hk) { t with
        arg0 := off, arg1 := BitVec.ofNat 64 (headerSize x.tag) } = .next u ∧
      u.status.toNat % 256 = 0 ∧ u.h[hk.val]? = some (some x)

/-- R169: decoding loses no bit of the header span. -/
def Obligations.EncodeOfDecodeIsTheBytes : Prop :=
  ∀ (fw : FlagsWidth) (t : Tag) (B : List Byte), headerSize t ≤ B.length →
    encodeHeader fw (decodeHeader fw t B) = B.take (headerSize t)

/-! ### FrameAssembly commands -/

/-- R181 (R147): FA.SET copies a header into the slot of its layer. -/
def Obligations.FaSetInsertsAtTheLayer : Prop :=
  ∀ (s : State) (hs : RegIdx), hs.val < s.cfg.nh →
    (s.h[hs.val]? = some none → exec (.faSet hs) s = .next (ended s 0x11)) ∧
    ∀ x, s.h[hs.val]? = some (some x) →
      (x.tag = .ethernet → exec (.faSet hs) s = .next (ended { s with l2 := some x } 0)) ∧
      (x.tag ≠ .ethernet → exec (.faSet hs) s = .next (ended { s with l3 := some x } 0))

/-- R182: FA.GET copies a slot into a header register. -/
def Obligations.FaGetCopiesTheSlot : Prop :=
  ∀ (s : State) (hd : RegIdx), hd.val < s.cfg.nh →
    (s.l2 = none → exec (.faGet hd 2) s = .next (ended s 0x15)) ∧
    (s.l3 = none → exec (.faGet hd 3) s = .next (ended s 0x15)) ∧
    (∀ x, s.l2 = some x →
      exec (.faGet hd 2) s = .next (ended { s with h := s.h.set hd.val (some x) } 0)) ∧
    ∀ x, s.l3 = some x →
      exec (.faGet hd 3) s = .next (ended { s with h := s.h.set hd.val (some x) } 0)

/-- R184 (R183): FA.PARSE replaces the assembly by the headers of the frame read. -/
def Obligations.FaParseReadsTheFrame : Prop :=
  ∀ s : State,
    (s.cfg.memSize < s.arg0.toNat + s.arg1.toNat → exec .faParse s = .next (ended s 0x13)) ∧
    (s.arg0.toNat + s.arg1.toNat ≤ s.cfg.memSize →
      ∃ (B : List Byte) (e : Header) (p : Option Header) (d : Nat),
        readsAs s s.arg0.toNat s.arg1.toNat B ∧
        decodesTo s.cfg.flagsWidth .ethernet (B.take 14) e ∧
        (e.fields.getD 2 0 = 0x0806 → ∃ x, p = some x ∧
          decodesTo s.cfg.flagsWidth .arp (B.drop 14) x) ∧
        (e.fields.getD 2 0 = 0x0800 → ∃ x, p = some x ∧
          decodesTo s.cfg.flagsWidth .ipv4 (B.drop 14) x) ∧
        (e.fields.getD 2 0 ≠ 0x0806 → e.fields.getD 2 0 ≠ 0x0800 → p = none) ∧
        exec .faParse s =
          .next (ended { s with l2 := some e, l3 := p, faBuf := [], draws := d } 0))

/-- R185: FA.BUILD, with its checks in order. -/
def Obligations.FaBuildEncapsulatesAndPads : Prop :=
  ∀ s : State,
    (s.l3 = none → exec .faBuild s = .next (ended s 0x15)) ∧
    ∀ x, s.l3 = some x →
      (s.l2 = none → s.cfg.legacyEmptyBuild = false → exec .faBuild s = .next (ended s 0x15)) ∧
      (s.l2 = none → s.cfg.legacyEmptyBuild = true →
        exec .faBuild s = .next (ended { s with faBuf := [] } 0)) ∧
      ∀ e B, s.l2 = some e →
        B = encodeHeader s.cfg.flagsWidth e ++ encodeHeader s.cfg.flagsWidth x →
        exec .faBuild s = .next (if 60 < B.length then ended s 0x03
          else ended { s with faBuf := B ++ List.replicate (60 - B.length) 0 } 0)

/-- R188: FA.BUILD never raises ConstructError, and what it builds from an Ethernet header and an Arp
or IPv4 header is 60 bytes that end with 18 or 26 zero bytes. -/
def Obligations.FaBuildNeverRaisesConstructError : Prop :=
  ∀ s t : State, exec .faBuild s = .next t →
    t.status.toNat % 256 ≠ 0x03 ∧
    ∀ e x, s.l2 = some e → s.l3 = some x → e.tag = .ethernet →
      (x.tag = .arp →
        t.faBuf.length = 60 ∧ t.faBuf.drop 42 = List.replicate 18 0) ∧
      (x.tag = .ipv4 →
        t.faBuf.length = 60 ∧ t.faBuf.drop 34 = List.replicate 26 0)

/-- R187: what FA.BUILD does depends only on L2, L3 and the parameters. -/
def Obligations.FaBuildIsDeterminedByTheSlots : Prop :=
  ∀ s s' t t' : State, s.l2 = s'.l2 → s.l3 = s'.l3 → s.cfg = s'.cfg →
    exec .faBuild s = .next t → exec .faBuild s' = .next t' →
    t.status.toNat % 256 = t'.status.toNat % 256 ∧
    (t.status.toNat % 256 = 0 → t.faBuf = t'.faBuf)

/-- R186: FA.READ stores FA_BUF at ARG0 and nowhere else. -/
def Obligations.FaReadStoresTheBuffer : Prop :=
  ∀ s : State,
    (s.cfg.memSize < s.arg0.toNat + s.faBuf.length → exec .faRead s = .next (ended s 0x13)) ∧
    (s.arg0.toNat + s.faBuf.length ≤ s.cfg.memSize →
      ∃ m : Memory,
        exec .faRead s =
          .next (ended { s with mem := m, res0 := BitVec.ofNat 64 s.faBuf.length } 0) ∧
        storedOnly s.mem m s.arg0.toNat s.faBuf.length ∧
        ∀ k, k < s.faBuf.length → Memory.read? m (s.arg0.toNat + k) = s.faBuf[k]?)

/-! ### Matcher commands -/

/-- R201: Q.INIT gives a predicate of wildcards. -/
def Obligations.QInitGivesWildcards : Prop :=
  ∀ (s : State) (qd : RegIdx), qd.val < s.cfg.nq →
    ∀ p ∈ [((1 : Imm), Tag.ethernet, 3), (2, Tag.arp, 9), (3, Tag.ipv4, 12)],
      exec (.qInit qd p.1) s =
        .next (ended { s with
          q := s.q.set qd.val (some ⟨p.2.1, List.replicate p.2.2 none⟩) } 0)

/-- R202, R203: Q.SET constrains one field to ARG0, Q.ANY makes it a wildcard. -/
def Obligations.QSetConstrainsAndQAnyFrees : Prop :=
  ∀ (s : State) (qd : RegIdx) (field : Imm), qd.val < s.cfg.nq →
    (s.q[qd.val]? = some none →
      exec (.qSet qd field) s = .next (ended s 0x11) ∧
      exec (.qAny qd field) s = .next (ended s 0x11)) ∧
    ∀ p, s.q[qd.val]? = some (some p) →
      (nfields p.tag ≤ field.val →
        exec (.qSet qd field) s = .next (ended s 0x12) ∧
        exec (.qAny qd field) s = .next (ended s 0x12)) ∧
      (field.val < nfields p.tag →
        exec (.qAny qd field) s =
          .next (ended { s with
            q := s.q.set qd.val (some ⟨p.tag, p.fields.set field.val none⟩) } 0) ∧
        (2 ^ fieldWidth s.cfg.flagsWidth p.tag field.val ≤ s.arg0.toNat →
          exec (.qSet qd field) s = .next (ended s 0x01)) ∧
        (s.arg0.toNat < 2 ^ fieldWidth s.cfg.flagsWidth p.tag field.val →
          exec (.qSet qd field) s =
            .next (ended { s with
              q := s.q.set qd.val
                (some ⟨p.tag, p.fields.set field.val (some s.arg0.toNat)⟩) } 0)))

/-- R204 (R200, R207): Q.MATCH against a header register. -/
def Obligations.QMatchEvaluatesThePredicate : Prop :=
  ∀ (s : State) (qs hs : RegIdx), qs.val < s.cfg.nq → hs.val < s.cfg.nh →
    (s.q[qs.val]? = some none → exec (.qMatch qs hs) s = .next (ended s 0x11)) ∧
    ∀ p, s.q[qs.val]? = some (some p) →
      (s.h[hs.val]? = some none → exec (.qMatch qs hs) s = .next (ended s 0x11)) ∧
      ∀ x, s.h[hs.val]? = some (some x) →
        (p.tag ≠ x.tag → s.cfg.tagMismatch = .noMatch →
          exec (.qMatch qs hs) s = .next (ended { s with res0 := 0 } 0)) ∧
        (p.tag ≠ x.tag → s.cfg.tagMismatch = .unwrap →
          exec (.qMatch qs hs) s = .next (ended s 0x04)) ∧
        (p.tag = x.tag →
          ((∀ id, id < nfields p.tag → p.fields.getD id none = none ∨
              p.fields.getD id none = some (x.fields.getD id 0)) →
            exec (.qMatch qs hs) s = .next (ended { s with res0 := 1 } 0)) ∧
          ∀ id v, id < nfields p.tag → p.fields.getD id none = some v →
            v ≠ x.fields.getD id 0 →
            exec (.qMatch qs hs) s = .next (ended { s with res0 := 0 } 0))

/-- R205 (R206, R200, R207): Q.MATCHFA against the slot at the predicate's natural layer. -/
def Obligations.QMatchfaEvaluatesAtTheNaturalLayer : Prop :=
  ∀ (s : State) (qs : RegIdx), qs.val < s.cfg.nq →
    (s.q[qs.val]? = some none → exec (.qMatchfa qs) s = .next (ended s 0x11)) ∧
    ∀ p slot, s.q[qs.val]? = some (some p) →
      (p.tag = .ethernet ∧ slot = s.l2) ∨ (p.tag ≠ .ethernet ∧ slot = s.l3) →
      (slot = none → exec (.qMatchfa qs) s = .next (ended { s with res0 := 0 } 0)) ∧
      ∀ x, slot = some x →
        (p.tag ≠ x.tag → s.cfg.tagMismatch = .noMatch →
          exec (.qMatchfa qs) s = .next (ended { s with res0 := 0 } 0)) ∧
        (p.tag ≠ x.tag → s.cfg.tagMismatch = .unwrap →
          exec (.qMatchfa qs) s = .next (ended s 0x04)) ∧
        (p.tag = x.tag →
          ((∀ id, id < nfields p.tag → p.fields.getD id none = none ∨
              p.fields.getD id none = some (x.fields.getD id 0)) →
            exec (.qMatchfa qs) s = .next (ended { s with res0 := 1 } 0)) ∧
          ∀ id v, id < nfields p.tag → p.fields.getD id none = some v →
            v ≠ x.fields.getD id 0 →
            exec (.qMatchfa qs) s = .next (ended { s with res0 := 0 } 0))

/-- R208: the two wildcard laws, for Q.MATCH. -/
def Obligations.WildcardLawsHold : Prop :=
  ∀ (s : State) (qs hs : RegIdx) (x : Header), qs.val < s.cfg.nq → hs.val < s.cfg.nh →
    s.h[hs.val]? = some (some x) →
    (s.q[qs.val]? = some (some ⟨x.tag, List.replicate (nfields x.tag) none⟩) →
      ∃ t, exec (.qMatch qs hs) s = .next t ∧ t.status.toNat % 256 = 0 ∧ t.res0 = 1) ∧
    ∀ id v, id < nfields x.tag →
      s.q[qs.val]? = some (some ⟨x.tag, (List.replicate (nfields x.tag) none).set id (some v)⟩) →
      ∃ t, exec (.qMatch qs hs) s = .next t ∧ t.status.toNat % 256 = 0 ∧
        t.res0 = if x.fields.getD id 0 = v then 1 else 0
end

