-- ==== Sys2Proof/Laws/Bits.lean ====
section
/-! SUPPORT. Lengths and elements of bit and byte sequences. -/

namespace Sys2Proof.Machine

@[simp] theorem length_bitsOf (v w : Nat) : (bitsOf v w).length = w := by
  induction w with
  | zero => rfl
  | succ w ih => simp [bitsOf, ih]

/-- Position i of the padded bits is bit w-1-i of the value. -/
theorem getElem?_bitsOf (v : Nat) : ∀ {w i : Nat}, i < w →
    (bitsOf v w)[i]? = some (v.testBit (w - 1 - i))
  | w + 1, 0, _ => by simp [bitsOf]
  | w + 1, i + 1, h => by
    rw [bitsOf, List.getElem?_cons_succ, getElem?_bitsOf v (by omega)]
    congr 2
    omega

@[simp] theorem length_zeroBits (n : Nat) : (zeroBits n).length = n := by simp [zeroBits]

@[simp] theorem length_sliceBits (S : List Bool) (a b : Nat) :
    (sliceBits S a b).length = min (b - a) (S.length - a) := by
  simp [sliceBits]

@[simp] theorem bytesToBits_nil : bytesToBits [] = [] := rfl

@[simp] theorem bytesToBits_cons (b : Byte) (B : List Byte) :
    bytesToBits (b :: B) = bitsOf b.toNat 8 ++ bytesToBits B := by
  simp [bytesToBits]

@[simp] theorem length_bytesToBits (B : List Byte) : (bytesToBits B).length = 8 * B.length := by
  induction B with
  | nil => rfl
  | cons b B ih => rw [bytesToBits_cons, List.length_append, length_bitsOf, ih, List.length_cons]; ring

@[simp] theorem length_bitsToBytes (S : List Bool) : (bitsToBytes S).length = S.length / 8 := by
  simp [bitsToBytes]

end Sys2Proof.Machine
end

