-- ==== Sys2Proof/Laws/Memory.lean ====
section
/-! SUPPORT. MEM: a read after a write, and the canonical form under every memory operation. -/

namespace Sys2Proof.Machine

@[simp] theorem Memory.read?_nil (a : Nat) : Memory.read? [] a = none := rfl

/-- A read after the write of one byte. -/
theorem Memory.read?_writeByte (m : Memory) (a c : Nat) (b : Byte) :
    Memory.read? (Memory.writeByte m a b) c =
      if c = a then some b else Memory.read? m c := by
  induction m with
  | nil => simp [Memory.writeByte, Memory.read?, eq_comm]
  | cons cell m ih =>
    obtain ⟨k, v⟩ := cell
    simp only [Memory.writeByte]
    split
    · simp [Memory.read?, eq_comm]
    · split
      · subst_vars; by_cases h : c = k <;> simp [Memory.read?, h, eq_comm]
      · simp only [Memory.read?, ih]
        split <;> split <;> simp_all

/-- A read after a write of bytes: the byte stored there, or what was there before. -/
theorem Memory.read?_writeBytes (bs : List Byte) : ∀ (m : Memory) (a c : Nat),
    Memory.read? (Memory.writeBytes m a bs) c =
      if a ≤ c ∧ c < a + bs.length then bs[c - a]? else Memory.read? m c := by
  induction bs with
  | nil => intro m a c; simp [Memory.writeBytes]
  | cons b bs ih =>
    intro m a c
    rw [Memory.writeBytes, ih, Memory.read?_writeByte]
    rcases Nat.lt_trichotomy c a with h | rfl | h
    · simp [show ¬ a + 1 ≤ c by omega, show ¬ a ≤ c by omega, show c ≠ a by omega]
    · simp
    · obtain ⟨d, rfl⟩ : ∃ d, c = a + 1 + d := ⟨c - (a + 1), by omega⟩
      simp [show a ≤ a + 1 + d by omega, show a + 1 + d - a = d + 1 by omega,
        show a + 1 + d ≠ a by omega]
      congr 1
      simp; omega

theorem Memory.read?_writeBytes_outside {m : Memory} {a c : Nat} {bs : List Byte}
    (h : ¬ (a ≤ c ∧ c < a + bs.length)) :
    Memory.read? (Memory.writeBytes m a bs) c = Memory.read? m c := by
  rw [Memory.read?_writeBytes, if_neg h]

theorem Memory.read?_writeBytes_inside {m : Memory} {a k : Nat} {bs : List Byte}
    (h : k < bs.length) :
    Memory.read? (Memory.writeBytes m a bs) (a + k) = some bs[k] := by
  rw [Memory.read?_writeBytes, if_pos (by omega)]
  simp [h]

/-- The addresses a byte write lists: its own and those listed before. -/
theorem Memory.mem_writeByte {m : Memory} {a : Nat} {b : Byte} {c : Host.Cell}
    (h : c ∈ Memory.writeByte m a b) : c = (a, b) ∨ c ∈ m := by
  induction m with
  | nil => simpa [Memory.writeByte] using h
  | cons cell m ih =>
    simp only [Memory.writeByte] at h
    split at h
    · simpa using h
    · split at h
      · simp only [List.mem_cons] at h ⊢
        tauto
      · simp only [List.mem_cons] at h ⊢
        tauto

/-- A byte write keeps the canonical form. -/
theorem Memory.wf_writeByte {n : Nat} {m : Memory} {a : Nat} {b : Byte} (ha : a < n)
    (h : Memory.wf n m) : Memory.wf n (Memory.writeByte m a b) := by
  obtain ⟨hs, hb⟩ := h
  refine ⟨?_, fun c hc => ?_⟩
  · clear hb
    induction m with
    | nil => simp [Memory.writeByte]
    | cons cell m ih =>
      obtain ⟨hc, hm⟩ := List.pairwise_cons.1 hs
      simp only [Memory.writeByte]
      split
      · refine List.pairwise_cons.2 ⟨fun d hd => ?_, hs⟩
        rcases List.mem_cons.1 hd with rfl | hd
        · assumption
        · exact lt_trans ‹_› (hc d hd)
      · split
        · refine List.pairwise_cons.2 ⟨fun d hd => ?_, hm⟩
          subst_vars
          exact hc d hd
        · refine List.pairwise_cons.2 ⟨fun d hd => ?_, ih hm⟩
          rcases Memory.mem_writeByte hd with rfl | hd
          · show cell.1 < a
            omega
          · exact hc d hd
  · rcases Memory.mem_writeByte hc with rfl | hc
    · exact ha
    · exact hb c hc

/-- `MemWrite` keeps the canonical form. -/
theorem Memory.wf_writeBytes {n : Nat} (bs : List Byte) : ∀ {m : Memory} {a : Nat},
    a + bs.length ≤ n → Memory.wf n m → Memory.wf n (Memory.writeBytes m a bs) := by
  induction bs with
  | nil => intro m a _ h; exact h
  | cons b bs ih =>
    intro m a ha h
    rw [List.length_cons] at ha
    exact ih (by omega) (Memory.wf_writeByte (by omega) h)

/-- The unwritten MEM of a hardware reset is in canonical form. -/
theorem Memory.wf_nil (n : Nat) : Memory.wf n [] := by simp [Memory.wf]

@[simp] theorem State.length_memBytes (s : State) (a n : Nat) : (s.memBytes a n).length = n := by
  simp [State.memBytes]

/-- What a memory read gives: at each address the byte MEM lists, or the free value of this read. -/
theorem State.getElem?_memBytes {s : State} {a n k : Nat} (h : k < n) :
    (s.memBytes a n)[k]? = some (s.memByte (a + k)) := by
  simp [State.memBytes, h]

theorem State.memByte_of_read? {s : State} {a : Nat} {b : Byte}
    (h : Memory.read? s.mem a = some b) : s.memByte a = b := by
  simp [State.memByte, h]

end Sys2Proof.Machine
end

