-- ==== Sys2Proof/Laws/State.lean ====
section
/-! SUPPORT. One lemma per field per update of State, so that no proof unfolds a record update. -/

namespace Sys2Proof.Machine

section
variable (s : State)

/-! #### withStatus -/

@[simp] theorem State.withStatus_arg0 (c : StatusCode) : (s.withStatus c).arg0 = s.arg0 := rfl
@[simp] theorem State.withStatus_arg1 (c : StatusCode) : (s.withStatus c).arg1 = s.arg1 := rfl
@[simp] theorem State.withStatus_arg2 (c : StatusCode) : (s.withStatus c).arg2 = s.arg2 := rfl
@[simp] theorem State.withStatus_arg3 (c : StatusCode) : (s.withStatus c).arg3 = s.arg3 := rfl
@[simp] theorem State.withStatus_res0 (c : StatusCode) : (s.withStatus c).res0 = s.res0 := rfl
@[simp] theorem State.withStatus_res1 (c : StatusCode) : (s.withStatus c).res1 = s.res1 := rfl
@[simp] theorem State.withStatus_status (c : StatusCode) : (s.withStatus c).status = statusAfter s.status c := rfl
@[simp] theorem State.withStatus_cmd (c : StatusCode) : (s.withStatus c).cmd = s.cmd := rfl
@[simp] theorem State.withStatus_bf (c : StatusCode) : (s.withStatus c).bf = s.bf := rfl
@[simp] theorem State.withStatus_h (c : StatusCode) : (s.withStatus c).h = s.h := rfl
@[simp] theorem State.withStatus_q (c : StatusCode) : (s.withStatus c).q = s.q := rfl
@[simp] theorem State.withStatus_fb (c : StatusCode) : (s.withStatus c).fb = s.fb := rfl
@[simp] theorem State.withStatus_l2 (c : StatusCode) : (s.withStatus c).l2 = s.l2 := rfl
@[simp] theorem State.withStatus_l3 (c : StatusCode) : (s.withStatus c).l3 = s.l3 := rfl
@[simp] theorem State.withStatus_faBuf (c : StatusCode) : (s.withStatus c).faBuf = s.faBuf := rfl
@[simp] theorem State.withStatus_mem (c : StatusCode) : (s.withStatus c).mem = s.mem := rfl
@[simp] theorem State.withStatus_cfg (c : StatusCode) : (s.withStatus c).cfg = s.cfg := rfl
@[simp] theorem State.withStatus_draws (c : StatusCode) : (s.withStatus c).draws = s.draws := rfl
@[simp] theorem State.withStatus_pending (c : StatusCode) : (s.withStatus c).pending = s.pending := rfl
@[simp] theorem State.withStatus_rdata (c : StatusCode) : (s.withStatus c).rdata = s.rdata := rfl

/-! #### drawn -/

@[simp] theorem State.drawn_arg0 : (s.drawn).arg0 = s.arg0 := rfl
@[simp] theorem State.drawn_arg1 : (s.drawn).arg1 = s.arg1 := rfl
@[simp] theorem State.drawn_arg2 : (s.drawn).arg2 = s.arg2 := rfl
@[simp] theorem State.drawn_arg3 : (s.drawn).arg3 = s.arg3 := rfl
@[simp] theorem State.drawn_res0 : (s.drawn).res0 = s.res0 := rfl
@[simp] theorem State.drawn_res1 : (s.drawn).res1 = s.res1 := rfl
@[simp] theorem State.drawn_status : (s.drawn).status = s.status := rfl
@[simp] theorem State.drawn_cmd : (s.drawn).cmd = s.cmd := rfl
@[simp] theorem State.drawn_bf : (s.drawn).bf = s.bf := rfl
@[simp] theorem State.drawn_h : (s.drawn).h = s.h := rfl
@[simp] theorem State.drawn_q : (s.drawn).q = s.q := rfl
@[simp] theorem State.drawn_fb : (s.drawn).fb = s.fb := rfl
@[simp] theorem State.drawn_l2 : (s.drawn).l2 = s.l2 := rfl
@[simp] theorem State.drawn_l3 : (s.drawn).l3 = s.l3 := rfl
@[simp] theorem State.drawn_faBuf : (s.drawn).faBuf = s.faBuf := rfl
@[simp] theorem State.drawn_mem : (s.drawn).mem = s.mem := rfl
@[simp] theorem State.drawn_cfg : (s.drawn).cfg = s.cfg := rfl
@[simp] theorem State.drawn_draws : (s.drawn).draws = s.draws + 1 := rfl
@[simp] theorem State.drawn_pending : (s.drawn).pending = s.pending := rfl
@[simp] theorem State.drawn_rdata : (s.drawn).rdata = s.rdata := rfl

/-! #### memWrite -/

@[simp] theorem State.memWrite_arg0 (a : Nat) (bs : List Byte) : (s.memWrite a bs).arg0 = s.arg0 := rfl
@[simp] theorem State.memWrite_arg1 (a : Nat) (bs : List Byte) : (s.memWrite a bs).arg1 = s.arg1 := rfl
@[simp] theorem State.memWrite_arg2 (a : Nat) (bs : List Byte) : (s.memWrite a bs).arg2 = s.arg2 := rfl
@[simp] theorem State.memWrite_arg3 (a : Nat) (bs : List Byte) : (s.memWrite a bs).arg3 = s.arg3 := rfl
@[simp] theorem State.memWrite_res0 (a : Nat) (bs : List Byte) : (s.memWrite a bs).res0 = s.res0 := rfl
@[simp] theorem State.memWrite_res1 (a : Nat) (bs : List Byte) : (s.memWrite a bs).res1 = s.res1 := rfl
@[simp] theorem State.memWrite_status (a : Nat) (bs : List Byte) : (s.memWrite a bs).status = s.status := rfl
@[simp] theorem State.memWrite_cmd (a : Nat) (bs : List Byte) : (s.memWrite a bs).cmd = s.cmd := rfl
@[simp] theorem State.memWrite_bf (a : Nat) (bs : List Byte) : (s.memWrite a bs).bf = s.bf := rfl
@[simp] theorem State.memWrite_h (a : Nat) (bs : List Byte) : (s.memWrite a bs).h = s.h := rfl
@[simp] theorem State.memWrite_q (a : Nat) (bs : List Byte) : (s.memWrite a bs).q = s.q := rfl
@[simp] theorem State.memWrite_fb (a : Nat) (bs : List Byte) : (s.memWrite a bs).fb = s.fb := rfl
@[simp] theorem State.memWrite_l2 (a : Nat) (bs : List Byte) : (s.memWrite a bs).l2 = s.l2 := rfl
@[simp] theorem State.memWrite_l3 (a : Nat) (bs : List Byte) : (s.memWrite a bs).l3 = s.l3 := rfl
@[simp] theorem State.memWrite_faBuf (a : Nat) (bs : List Byte) : (s.memWrite a bs).faBuf = s.faBuf := rfl
@[simp] theorem State.memWrite_mem (a : Nat) (bs : List Byte) : (s.memWrite a bs).mem = Memory.writeBytes s.mem a bs := rfl
@[simp] theorem State.memWrite_cfg (a : Nat) (bs : List Byte) : (s.memWrite a bs).cfg = s.cfg := rfl
@[simp] theorem State.memWrite_draws (a : Nat) (bs : List Byte) : (s.memWrite a bs).draws = s.draws := rfl
@[simp] theorem State.memWrite_pending (a : Nat) (bs : List Byte) : (s.memWrite a bs).pending = s.pending := rfl
@[simp] theorem State.memWrite_rdata (a : Nat) (bs : List Byte) : (s.memWrite a bs).rdata = s.rdata := rfl

/-! #### setBf -/

@[simp] theorem State.setBf_arg0 (i : RegIdx) (x : BitField) : (s.setBf i x).arg0 = s.arg0 := rfl
@[simp] theorem State.setBf_arg1 (i : RegIdx) (x : BitField) : (s.setBf i x).arg1 = s.arg1 := rfl
@[simp] theorem State.setBf_arg2 (i : RegIdx) (x : BitField) : (s.setBf i x).arg2 = s.arg2 := rfl
@[simp] theorem State.setBf_arg3 (i : RegIdx) (x : BitField) : (s.setBf i x).arg3 = s.arg3 := rfl
@[simp] theorem State.setBf_res0 (i : RegIdx) (x : BitField) : (s.setBf i x).res0 = s.res0 := rfl
@[simp] theorem State.setBf_res1 (i : RegIdx) (x : BitField) : (s.setBf i x).res1 = s.res1 := rfl
@[simp] theorem State.setBf_status (i : RegIdx) (x : BitField) : (s.setBf i x).status = s.status := rfl
@[simp] theorem State.setBf_cmd (i : RegIdx) (x : BitField) : (s.setBf i x).cmd = s.cmd := rfl
@[simp] theorem State.setBf_bf (i : RegIdx) (x : BitField) : (s.setBf i x).bf = regWrite s.bf i x := rfl
@[simp] theorem State.setBf_h (i : RegIdx) (x : BitField) : (s.setBf i x).h = s.h := rfl
@[simp] theorem State.setBf_q (i : RegIdx) (x : BitField) : (s.setBf i x).q = s.q := rfl
@[simp] theorem State.setBf_fb (i : RegIdx) (x : BitField) : (s.setBf i x).fb = s.fb := rfl
@[simp] theorem State.setBf_l2 (i : RegIdx) (x : BitField) : (s.setBf i x).l2 = s.l2 := rfl
@[simp] theorem State.setBf_l3 (i : RegIdx) (x : BitField) : (s.setBf i x).l3 = s.l3 := rfl
@[simp] theorem State.setBf_faBuf (i : RegIdx) (x : BitField) : (s.setBf i x).faBuf = s.faBuf := rfl
@[simp] theorem State.setBf_mem (i : RegIdx) (x : BitField) : (s.setBf i x).mem = s.mem := rfl
@[simp] theorem State.setBf_cfg (i : RegIdx) (x : BitField) : (s.setBf i x).cfg = s.cfg := rfl
@[simp] theorem State.setBf_draws (i : RegIdx) (x : BitField) : (s.setBf i x).draws = s.draws := rfl
@[simp] theorem State.setBf_pending (i : RegIdx) (x : BitField) : (s.setBf i x).pending = s.pending := rfl
@[simp] theorem State.setBf_rdata (i : RegIdx) (x : BitField) : (s.setBf i x).rdata = s.rdata := rfl

/-! #### setH -/

@[simp] theorem State.setH_arg0 (i : RegIdx) (x : Header) : (s.setH i x).arg0 = s.arg0 := rfl
@[simp] theorem State.setH_arg1 (i : RegIdx) (x : Header) : (s.setH i x).arg1 = s.arg1 := rfl
@[simp] theorem State.setH_arg2 (i : RegIdx) (x : Header) : (s.setH i x).arg2 = s.arg2 := rfl
@[simp] theorem State.setH_arg3 (i : RegIdx) (x : Header) : (s.setH i x).arg3 = s.arg3 := rfl
@[simp] theorem State.setH_res0 (i : RegIdx) (x : Header) : (s.setH i x).res0 = s.res0 := rfl
@[simp] theorem State.setH_res1 (i : RegIdx) (x : Header) : (s.setH i x).res1 = s.res1 := rfl
@[simp] theorem State.setH_status (i : RegIdx) (x : Header) : (s.setH i x).status = s.status := rfl
@[simp] theorem State.setH_cmd (i : RegIdx) (x : Header) : (s.setH i x).cmd = s.cmd := rfl
@[simp] theorem State.setH_bf (i : RegIdx) (x : Header) : (s.setH i x).bf = s.bf := rfl
@[simp] theorem State.setH_h (i : RegIdx) (x : Header) : (s.setH i x).h = regWrite s.h i x := rfl
@[simp] theorem State.setH_q (i : RegIdx) (x : Header) : (s.setH i x).q = s.q := rfl
@[simp] theorem State.setH_fb (i : RegIdx) (x : Header) : (s.setH i x).fb = s.fb := rfl
@[simp] theorem State.setH_l2 (i : RegIdx) (x : Header) : (s.setH i x).l2 = s.l2 := rfl
@[simp] theorem State.setH_l3 (i : RegIdx) (x : Header) : (s.setH i x).l3 = s.l3 := rfl
@[simp] theorem State.setH_faBuf (i : RegIdx) (x : Header) : (s.setH i x).faBuf = s.faBuf := rfl
@[simp] theorem State.setH_mem (i : RegIdx) (x : Header) : (s.setH i x).mem = s.mem := rfl
@[simp] theorem State.setH_cfg (i : RegIdx) (x : Header) : (s.setH i x).cfg = s.cfg := rfl
@[simp] theorem State.setH_draws (i : RegIdx) (x : Header) : (s.setH i x).draws = s.draws := rfl
@[simp] theorem State.setH_pending (i : RegIdx) (x : Header) : (s.setH i x).pending = s.pending := rfl
@[simp] theorem State.setH_rdata (i : RegIdx) (x : Header) : (s.setH i x).rdata = s.rdata := rfl

/-! #### setQ -/

@[simp] theorem State.setQ_arg0 (i : RegIdx) (x : Predicate) : (s.setQ i x).arg0 = s.arg0 := rfl
@[simp] theorem State.setQ_arg1 (i : RegIdx) (x : Predicate) : (s.setQ i x).arg1 = s.arg1 := rfl
@[simp] theorem State.setQ_arg2 (i : RegIdx) (x : Predicate) : (s.setQ i x).arg2 = s.arg2 := rfl
@[simp] theorem State.setQ_arg3 (i : RegIdx) (x : Predicate) : (s.setQ i x).arg3 = s.arg3 := rfl
@[simp] theorem State.setQ_res0 (i : RegIdx) (x : Predicate) : (s.setQ i x).res0 = s.res0 := rfl
@[simp] theorem State.setQ_res1 (i : RegIdx) (x : Predicate) : (s.setQ i x).res1 = s.res1 := rfl
@[simp] theorem State.setQ_status (i : RegIdx) (x : Predicate) : (s.setQ i x).status = s.status := rfl
@[simp] theorem State.setQ_cmd (i : RegIdx) (x : Predicate) : (s.setQ i x).cmd = s.cmd := rfl
@[simp] theorem State.setQ_bf (i : RegIdx) (x : Predicate) : (s.setQ i x).bf = s.bf := rfl
@[simp] theorem State.setQ_h (i : RegIdx) (x : Predicate) : (s.setQ i x).h = s.h := rfl
@[simp] theorem State.setQ_q (i : RegIdx) (x : Predicate) : (s.setQ i x).q = regWrite s.q i x := rfl
@[simp] theorem State.setQ_fb (i : RegIdx) (x : Predicate) : (s.setQ i x).fb = s.fb := rfl
@[simp] theorem State.setQ_l2 (i : RegIdx) (x : Predicate) : (s.setQ i x).l2 = s.l2 := rfl
@[simp] theorem State.setQ_l3 (i : RegIdx) (x : Predicate) : (s.setQ i x).l3 = s.l3 := rfl
@[simp] theorem State.setQ_faBuf (i : RegIdx) (x : Predicate) : (s.setQ i x).faBuf = s.faBuf := rfl
@[simp] theorem State.setQ_mem (i : RegIdx) (x : Predicate) : (s.setQ i x).mem = s.mem := rfl
@[simp] theorem State.setQ_cfg (i : RegIdx) (x : Predicate) : (s.setQ i x).cfg = s.cfg := rfl
@[simp] theorem State.setQ_draws (i : RegIdx) (x : Predicate) : (s.setQ i x).draws = s.draws := rfl
@[simp] theorem State.setQ_pending (i : RegIdx) (x : Predicate) : (s.setQ i x).pending = s.pending := rfl
@[simp] theorem State.setQ_rdata (i : RegIdx) (x : Predicate) : (s.setQ i x).rdata = s.rdata := rfl

/-! #### setRes0 -/

@[simp] theorem State.setRes0_arg0 (v : Nat) : (s.setRes0 v).arg0 = s.arg0 := rfl
@[simp] theorem State.setRes0_arg1 (v : Nat) : (s.setRes0 v).arg1 = s.arg1 := rfl
@[simp] theorem State.setRes0_arg2 (v : Nat) : (s.setRes0 v).arg2 = s.arg2 := rfl
@[simp] theorem State.setRes0_arg3 (v : Nat) : (s.setRes0 v).arg3 = s.arg3 := rfl
@[simp] theorem State.setRes0_res0 (v : Nat) : (s.setRes0 v).res0 = BitVec.ofNat 64 v := rfl
@[simp] theorem State.setRes0_res1 (v : Nat) : (s.setRes0 v).res1 = s.res1 := rfl
@[simp] theorem State.setRes0_status (v : Nat) : (s.setRes0 v).status = s.status := rfl
@[simp] theorem State.setRes0_cmd (v : Nat) : (s.setRes0 v).cmd = s.cmd := rfl
@[simp] theorem State.setRes0_bf (v : Nat) : (s.setRes0 v).bf = s.bf := rfl
@[simp] theorem State.setRes0_h (v : Nat) : (s.setRes0 v).h = s.h := rfl
@[simp] theorem State.setRes0_q (v : Nat) : (s.setRes0 v).q = s.q := rfl
@[simp] theorem State.setRes0_fb (v : Nat) : (s.setRes0 v).fb = s.fb := rfl
@[simp] theorem State.setRes0_l2 (v : Nat) : (s.setRes0 v).l2 = s.l2 := rfl
@[simp] theorem State.setRes0_l3 (v : Nat) : (s.setRes0 v).l3 = s.l3 := rfl
@[simp] theorem State.setRes0_faBuf (v : Nat) : (s.setRes0 v).faBuf = s.faBuf := rfl
@[simp] theorem State.setRes0_mem (v : Nat) : (s.setRes0 v).mem = s.mem := rfl
@[simp] theorem State.setRes0_cfg (v : Nat) : (s.setRes0 v).cfg = s.cfg := rfl
@[simp] theorem State.setRes0_draws (v : Nat) : (s.setRes0 v).draws = s.draws := rfl
@[simp] theorem State.setRes0_pending (v : Nat) : (s.setRes0 v).pending = s.pending := rfl
@[simp] theorem State.setRes0_rdata (v : Nat) : (s.setRes0 v).rdata = s.rdata := rfl

/-! #### setRes1 -/

@[simp] theorem State.setRes1_arg0 (v : Nat) : (s.setRes1 v).arg0 = s.arg0 := rfl
@[simp] theorem State.setRes1_arg1 (v : Nat) : (s.setRes1 v).arg1 = s.arg1 := rfl
@[simp] theorem State.setRes1_arg2 (v : Nat) : (s.setRes1 v).arg2 = s.arg2 := rfl
@[simp] theorem State.setRes1_arg3 (v : Nat) : (s.setRes1 v).arg3 = s.arg3 := rfl
@[simp] theorem State.setRes1_res0 (v : Nat) : (s.setRes1 v).res0 = s.res0 := rfl
@[simp] theorem State.setRes1_res1 (v : Nat) : (s.setRes1 v).res1 = BitVec.ofNat 64 v := rfl
@[simp] theorem State.setRes1_status (v : Nat) : (s.setRes1 v).status = s.status := rfl
@[simp] theorem State.setRes1_cmd (v : Nat) : (s.setRes1 v).cmd = s.cmd := rfl
@[simp] theorem State.setRes1_bf (v : Nat) : (s.setRes1 v).bf = s.bf := rfl
@[simp] theorem State.setRes1_h (v : Nat) : (s.setRes1 v).h = s.h := rfl
@[simp] theorem State.setRes1_q (v : Nat) : (s.setRes1 v).q = s.q := rfl
@[simp] theorem State.setRes1_fb (v : Nat) : (s.setRes1 v).fb = s.fb := rfl
@[simp] theorem State.setRes1_l2 (v : Nat) : (s.setRes1 v).l2 = s.l2 := rfl
@[simp] theorem State.setRes1_l3 (v : Nat) : (s.setRes1 v).l3 = s.l3 := rfl
@[simp] theorem State.setRes1_faBuf (v : Nat) : (s.setRes1 v).faBuf = s.faBuf := rfl
@[simp] theorem State.setRes1_mem (v : Nat) : (s.setRes1 v).mem = s.mem := rfl
@[simp] theorem State.setRes1_cfg (v : Nat) : (s.setRes1 v).cfg = s.cfg := rfl
@[simp] theorem State.setRes1_draws (v : Nat) : (s.setRes1 v).draws = s.draws := rfl
@[simp] theorem State.setRes1_pending (v : Nat) : (s.setRes1 v).pending = s.pending := rfl
@[simp] theorem State.setRes1_rdata (v : Nat) : (s.setRes1 v).rdata = s.rdata := rfl

/-! #### fbAppend -/

@[simp] theorem State.fbAppend_arg0 (S : List Bool) : (s.fbAppend S).arg0 = s.arg0 := rfl
@[simp] theorem State.fbAppend_arg1 (S : List Bool) : (s.fbAppend S).arg1 = s.arg1 := rfl
@[simp] theorem State.fbAppend_arg2 (S : List Bool) : (s.fbAppend S).arg2 = s.arg2 := rfl
@[simp] theorem State.fbAppend_arg3 (S : List Bool) : (s.fbAppend S).arg3 = s.arg3 := rfl
@[simp] theorem State.fbAppend_res0 (S : List Bool) : (s.fbAppend S).res0 = s.res0 := rfl
@[simp] theorem State.fbAppend_res1 (S : List Bool) : (s.fbAppend S).res1 = s.res1 := rfl
@[simp] theorem State.fbAppend_status (S : List Bool) : (s.fbAppend S).status = s.status := rfl
@[simp] theorem State.fbAppend_cmd (S : List Bool) : (s.fbAppend S).cmd = s.cmd := rfl
@[simp] theorem State.fbAppend_bf (S : List Bool) : (s.fbAppend S).bf = s.bf := rfl
@[simp] theorem State.fbAppend_h (S : List Bool) : (s.fbAppend S).h = s.h := rfl
@[simp] theorem State.fbAppend_q (S : List Bool) : (s.fbAppend S).q = s.q := rfl
@[simp] theorem State.fbAppend_fb (S : List Bool) : (s.fbAppend S).fb = s.fb ++ S := rfl
@[simp] theorem State.fbAppend_l2 (S : List Bool) : (s.fbAppend S).l2 = s.l2 := rfl
@[simp] theorem State.fbAppend_l3 (S : List Bool) : (s.fbAppend S).l3 = s.l3 := rfl
@[simp] theorem State.fbAppend_faBuf (S : List Bool) : (s.fbAppend S).faBuf = s.faBuf := rfl
@[simp] theorem State.fbAppend_mem (S : List Bool) : (s.fbAppend S).mem = s.mem := rfl
@[simp] theorem State.fbAppend_cfg (S : List Bool) : (s.fbAppend S).cfg = s.cfg := rfl
@[simp] theorem State.fbAppend_draws (S : List Bool) : (s.fbAppend S).draws = s.draws := rfl
@[simp] theorem State.fbAppend_pending (S : List Bool) : (s.fbAppend S).pending = s.pending := rfl
@[simp] theorem State.fbAppend_rdata (S : List Bool) : (s.fbAppend S).rdata = s.rdata := rfl

/-! #### parseFrame -/

@[simp] theorem State.parseFrame_arg0 (B : List Byte) : (s.parseFrame B).arg0 = s.arg0 := rfl
@[simp] theorem State.parseFrame_arg1 (B : List Byte) : (s.parseFrame B).arg1 = s.arg1 := rfl
@[simp] theorem State.parseFrame_arg2 (B : List Byte) : (s.parseFrame B).arg2 = s.arg2 := rfl
@[simp] theorem State.parseFrame_arg3 (B : List Byte) : (s.parseFrame B).arg3 = s.arg3 := rfl
@[simp] theorem State.parseFrame_res0 (B : List Byte) : (s.parseFrame B).res0 = s.res0 := rfl
@[simp] theorem State.parseFrame_res1 (B : List Byte) : (s.parseFrame B).res1 = s.res1 := rfl
@[simp] theorem State.parseFrame_status (B : List Byte) : (s.parseFrame B).status = s.status := rfl
@[simp] theorem State.parseFrame_cmd (B : List Byte) : (s.parseFrame B).cmd = s.cmd := rfl
@[simp] theorem State.parseFrame_bf (B : List Byte) : (s.parseFrame B).bf = s.bf := rfl
@[simp] theorem State.parseFrame_h (B : List Byte) : (s.parseFrame B).h = s.h := rfl
@[simp] theorem State.parseFrame_q (B : List Byte) : (s.parseFrame B).q = s.q := rfl
@[simp] theorem State.parseFrame_fb (B : List Byte) : (s.parseFrame B).fb = s.fb := rfl
@[simp] theorem State.parseFrame_l2 (B : List Byte) : (s.parseFrame B).l2 = some (parseLink s.cfg.flagsWidth B) := rfl
@[simp] theorem State.parseFrame_l3 (B : List Byte) : (s.parseFrame B).l3 = parsePayload s.cfg.flagsWidth (parseLink s.cfg.flagsWidth B) B := rfl
@[simp] theorem State.parseFrame_faBuf (B : List Byte) : (s.parseFrame B).faBuf = [] := rfl
@[simp] theorem State.parseFrame_mem (B : List Byte) : (s.parseFrame B).mem = s.mem := rfl
@[simp] theorem State.parseFrame_cfg (B : List Byte) : (s.parseFrame B).cfg = s.cfg := rfl
@[simp] theorem State.parseFrame_draws (B : List Byte) : (s.parseFrame B).draws = s.draws := rfl
@[simp] theorem State.parseFrame_pending (B : List Byte) : (s.parseFrame B).pending = s.pending := rfl
@[simp] theorem State.parseFrame_rdata (B : List Byte) : (s.parseFrame B).rdata = s.rdata := rfl

/-! #### setCmd -/

@[simp] theorem State.setCmd_arg0 (w : Word) : (s.setCmd w).arg0 = s.arg0 := rfl
@[simp] theorem State.setCmd_arg1 (w : Word) : (s.setCmd w).arg1 = s.arg1 := rfl
@[simp] theorem State.setCmd_arg2 (w : Word) : (s.setCmd w).arg2 = s.arg2 := rfl
@[simp] theorem State.setCmd_arg3 (w : Word) : (s.setCmd w).arg3 = s.arg3 := rfl
@[simp] theorem State.setCmd_res0 (w : Word) : (s.setCmd w).res0 = s.res0 := rfl
@[simp] theorem State.setCmd_res1 (w : Word) : (s.setCmd w).res1 = s.res1 := rfl
@[simp] theorem State.setCmd_status (w : Word) : (s.setCmd w).status = s.status := rfl
@[simp] theorem State.setCmd_cmd (w : Word) : (s.setCmd w).cmd = w := rfl
@[simp] theorem State.setCmd_bf (w : Word) : (s.setCmd w).bf = s.bf := rfl
@[simp] theorem State.setCmd_h (w : Word) : (s.setCmd w).h = s.h := rfl
@[simp] theorem State.setCmd_q (w : Word) : (s.setCmd w).q = s.q := rfl
@[simp] theorem State.setCmd_fb (w : Word) : (s.setCmd w).fb = s.fb := rfl
@[simp] theorem State.setCmd_l2 (w : Word) : (s.setCmd w).l2 = s.l2 := rfl
@[simp] theorem State.setCmd_l3 (w : Word) : (s.setCmd w).l3 = s.l3 := rfl
@[simp] theorem State.setCmd_faBuf (w : Word) : (s.setCmd w).faBuf = s.faBuf := rfl
@[simp] theorem State.setCmd_mem (w : Word) : (s.setCmd w).mem = s.mem := rfl
@[simp] theorem State.setCmd_cfg (w : Word) : (s.setCmd w).cfg = s.cfg := rfl
@[simp] theorem State.setCmd_draws (w : Word) : (s.setCmd w).draws = s.draws := rfl
@[simp] theorem State.setCmd_pending (w : Word) : (s.setCmd w).pending = s.pending := rfl
@[simp] theorem State.setCmd_rdata (w : Word) : (s.setCmd w).rdata = s.rdata := rfl

/-! #### setStatus -/

@[simp] theorem State.setStatus_arg0 (st : Word) : (s.setStatus st).arg0 = s.arg0 := rfl
@[simp] theorem State.setStatus_arg1 (st : Word) : (s.setStatus st).arg1 = s.arg1 := rfl
@[simp] theorem State.setStatus_arg2 (st : Word) : (s.setStatus st).arg2 = s.arg2 := rfl
@[simp] theorem State.setStatus_arg3 (st : Word) : (s.setStatus st).arg3 = s.arg3 := rfl
@[simp] theorem State.setStatus_res0 (st : Word) : (s.setStatus st).res0 = s.res0 := rfl
@[simp] theorem State.setStatus_res1 (st : Word) : (s.setStatus st).res1 = s.res1 := rfl
@[simp] theorem State.setStatus_status (st : Word) : (s.setStatus st).status = st := rfl
@[simp] theorem State.setStatus_cmd (st : Word) : (s.setStatus st).cmd = s.cmd := rfl
@[simp] theorem State.setStatus_bf (st : Word) : (s.setStatus st).bf = s.bf := rfl
@[simp] theorem State.setStatus_h (st : Word) : (s.setStatus st).h = s.h := rfl
@[simp] theorem State.setStatus_q (st : Word) : (s.setStatus st).q = s.q := rfl
@[simp] theorem State.setStatus_fb (st : Word) : (s.setStatus st).fb = s.fb := rfl
@[simp] theorem State.setStatus_l2 (st : Word) : (s.setStatus st).l2 = s.l2 := rfl
@[simp] theorem State.setStatus_l3 (st : Word) : (s.setStatus st).l3 = s.l3 := rfl
@[simp] theorem State.setStatus_faBuf (st : Word) : (s.setStatus st).faBuf = s.faBuf := rfl
@[simp] theorem State.setStatus_mem (st : Word) : (s.setStatus st).mem = s.mem := rfl
@[simp] theorem State.setStatus_cfg (st : Word) : (s.setStatus st).cfg = s.cfg := rfl
@[simp] theorem State.setStatus_draws (st : Word) : (s.setStatus st).draws = s.draws := rfl
@[simp] theorem State.setStatus_pending (st : Word) : (s.setStatus st).pending = s.pending := rfl
@[simp] theorem State.setStatus_rdata (st : Word) : (s.setStatus st).rdata = s.rdata := rfl

/-! #### setRdata -/

@[simp] theorem State.setRdata_arg0 (v : Word) : (s.setRdata v).arg0 = s.arg0 := rfl
@[simp] theorem State.setRdata_arg1 (v : Word) : (s.setRdata v).arg1 = s.arg1 := rfl
@[simp] theorem State.setRdata_arg2 (v : Word) : (s.setRdata v).arg2 = s.arg2 := rfl
@[simp] theorem State.setRdata_arg3 (v : Word) : (s.setRdata v).arg3 = s.arg3 := rfl
@[simp] theorem State.setRdata_res0 (v : Word) : (s.setRdata v).res0 = s.res0 := rfl
@[simp] theorem State.setRdata_res1 (v : Word) : (s.setRdata v).res1 = s.res1 := rfl
@[simp] theorem State.setRdata_status (v : Word) : (s.setRdata v).status = s.status := rfl
@[simp] theorem State.setRdata_cmd (v : Word) : (s.setRdata v).cmd = s.cmd := rfl
@[simp] theorem State.setRdata_bf (v : Word) : (s.setRdata v).bf = s.bf := rfl
@[simp] theorem State.setRdata_h (v : Word) : (s.setRdata v).h = s.h := rfl
@[simp] theorem State.setRdata_q (v : Word) : (s.setRdata v).q = s.q := rfl
@[simp] theorem State.setRdata_fb (v : Word) : (s.setRdata v).fb = s.fb := rfl
@[simp] theorem State.setRdata_l2 (v : Word) : (s.setRdata v).l2 = s.l2 := rfl
@[simp] theorem State.setRdata_l3 (v : Word) : (s.setRdata v).l3 = s.l3 := rfl
@[simp] theorem State.setRdata_faBuf (v : Word) : (s.setRdata v).faBuf = s.faBuf := rfl
@[simp] theorem State.setRdata_mem (v : Word) : (s.setRdata v).mem = s.mem := rfl
@[simp] theorem State.setRdata_cfg (v : Word) : (s.setRdata v).cfg = s.cfg := rfl
@[simp] theorem State.setRdata_draws (v : Word) : (s.setRdata v).draws = s.draws := rfl
@[simp] theorem State.setRdata_pending (v : Word) : (s.setRdata v).pending = s.pending := rfl
@[simp] theorem State.setRdata_rdata (v : Word) : (s.setRdata v).rdata = v := rfl

/-! #### setPending -/

@[simp] theorem State.setPending_arg0 (l : List HostAccess) : (s.setPending l).arg0 = s.arg0 := rfl
@[simp] theorem State.setPending_arg1 (l : List HostAccess) : (s.setPending l).arg1 = s.arg1 := rfl
@[simp] theorem State.setPending_arg2 (l : List HostAccess) : (s.setPending l).arg2 = s.arg2 := rfl
@[simp] theorem State.setPending_arg3 (l : List HostAccess) : (s.setPending l).arg3 = s.arg3 := rfl
@[simp] theorem State.setPending_res0 (l : List HostAccess) : (s.setPending l).res0 = s.res0 := rfl
@[simp] theorem State.setPending_res1 (l : List HostAccess) : (s.setPending l).res1 = s.res1 := rfl
@[simp] theorem State.setPending_status (l : List HostAccess) : (s.setPending l).status = s.status := rfl
@[simp] theorem State.setPending_cmd (l : List HostAccess) : (s.setPending l).cmd = s.cmd := rfl
@[simp] theorem State.setPending_bf (l : List HostAccess) : (s.setPending l).bf = s.bf := rfl
@[simp] theorem State.setPending_h (l : List HostAccess) : (s.setPending l).h = s.h := rfl
@[simp] theorem State.setPending_q (l : List HostAccess) : (s.setPending l).q = s.q := rfl
@[simp] theorem State.setPending_fb (l : List HostAccess) : (s.setPending l).fb = s.fb := rfl
@[simp] theorem State.setPending_l2 (l : List HostAccess) : (s.setPending l).l2 = s.l2 := rfl
@[simp] theorem State.setPending_l3 (l : List HostAccess) : (s.setPending l).l3 = s.l3 := rfl
@[simp] theorem State.setPending_faBuf (l : List HostAccess) : (s.setPending l).faBuf = s.faBuf := rfl
@[simp] theorem State.setPending_mem (l : List HostAccess) : (s.setPending l).mem = s.mem := rfl
@[simp] theorem State.setPending_cfg (l : List HostAccess) : (s.setPending l).cfg = s.cfg := rfl
@[simp] theorem State.setPending_draws (l : List HostAccess) : (s.setPending l).draws = s.draws := rfl
@[simp] theorem State.setPending_pending (l : List HostAccess) : (s.setPending l).pending = l := rfl
@[simp] theorem State.setPending_rdata (l : List HostAccess) : (s.setPending l).rdata = s.rdata := rfl

/-! #### softReset -/

@[simp] theorem State.softReset_arg0 : (s.softReset).arg0 = 0 := rfl
@[simp] theorem State.softReset_arg1 : (s.softReset).arg1 = 0 := rfl
@[simp] theorem State.softReset_arg2 : (s.softReset).arg2 = 0 := rfl
@[simp] theorem State.softReset_arg3 : (s.softReset).arg3 = 0 := rfl
@[simp] theorem State.softReset_res0 : (s.softReset).res0 = 0 := rfl
@[simp] theorem State.softReset_res1 : (s.softReset).res1 = 0 := rfl
@[simp] theorem State.softReset_status : (s.softReset).status = 0 := rfl
@[simp] theorem State.softReset_cmd : (s.softReset).cmd = 0 := rfl
@[simp] theorem State.softReset_bf : (s.softReset).bf = List.replicate s.cfg.nbf none := rfl
@[simp] theorem State.softReset_h : (s.softReset).h = List.replicate s.cfg.nh none := rfl
@[simp] theorem State.softReset_q : (s.softReset).q = List.replicate s.cfg.nq none := rfl
@[simp] theorem State.softReset_fb : (s.softReset).fb = [] := rfl
@[simp] theorem State.softReset_l2 : (s.softReset).l2 = none := rfl
@[simp] theorem State.softReset_l3 : (s.softReset).l3 = none := rfl
@[simp] theorem State.softReset_faBuf : (s.softReset).faBuf = [] := rfl
@[simp] theorem State.softReset_mem : (s.softReset).mem = s.mem := rfl
@[simp] theorem State.softReset_cfg : (s.softReset).cfg = s.cfg := rfl
@[simp] theorem State.softReset_draws : (s.softReset).draws = s.draws := rfl
@[simp] theorem State.softReset_pending : (s.softReset).pending = s.pending := rfl
@[simp] theorem State.softReset_rdata : (s.softReset).rdata = s.rdata := rfl

/-! #### hardReset -/

@[simp] theorem State.hardReset_arg0 : (s.hardReset).arg0 = 0 := rfl
@[simp] theorem State.hardReset_arg1 : (s.hardReset).arg1 = 0 := rfl
@[simp] theorem State.hardReset_arg2 : (s.hardReset).arg2 = 0 := rfl
@[simp] theorem State.hardReset_arg3 : (s.hardReset).arg3 = 0 := rfl
@[simp] theorem State.hardReset_res0 : (s.hardReset).res0 = 0 := rfl
@[simp] theorem State.hardReset_res1 : (s.hardReset).res1 = 0 := rfl
@[simp] theorem State.hardReset_status : (s.hardReset).status = 0 := rfl
@[simp] theorem State.hardReset_cmd : (s.hardReset).cmd = 0 := rfl
@[simp] theorem State.hardReset_bf : (s.hardReset).bf = List.replicate s.cfg.nbf none := rfl
@[simp] theorem State.hardReset_h : (s.hardReset).h = List.replicate s.cfg.nh none := rfl
@[simp] theorem State.hardReset_q : (s.hardReset).q = List.replicate s.cfg.nq none := rfl
@[simp] theorem State.hardReset_fb : (s.hardReset).fb = [] := rfl
@[simp] theorem State.hardReset_l2 : (s.hardReset).l2 = none := rfl
@[simp] theorem State.hardReset_l3 : (s.hardReset).l3 = none := rfl
@[simp] theorem State.hardReset_faBuf : (s.hardReset).faBuf = [] := rfl
@[simp] theorem State.hardReset_mem : (s.hardReset).mem = [] := rfl
@[simp] theorem State.hardReset_cfg : (s.hardReset).cfg = s.cfg := rfl
@[simp] theorem State.hardReset_draws : (s.hardReset).draws = s.draws := rfl
@[simp] theorem State.hardReset_pending : (s.hardReset).pending = s.pending := rfl
@[simp] theorem State.hardReset_rdata : (s.hardReset).rdata = s.rdata := rfl

end

/-! #### resetWith -/

section
variable (cfg : Config)

@[simp] theorem State.resetWith_arg0 : (State.resetWith cfg).arg0 = 0 := rfl
@[simp] theorem State.resetWith_arg1 : (State.resetWith cfg).arg1 = 0 := rfl
@[simp] theorem State.resetWith_arg2 : (State.resetWith cfg).arg2 = 0 := rfl
@[simp] theorem State.resetWith_arg3 : (State.resetWith cfg).arg3 = 0 := rfl
@[simp] theorem State.resetWith_res0 : (State.resetWith cfg).res0 = 0 := rfl
@[simp] theorem State.resetWith_res1 : (State.resetWith cfg).res1 = 0 := rfl
@[simp] theorem State.resetWith_status : (State.resetWith cfg).status = 0 := rfl
@[simp] theorem State.resetWith_cmd : (State.resetWith cfg).cmd = 0 := rfl
@[simp] theorem State.resetWith_bf : (State.resetWith cfg).bf = List.replicate cfg.nbf none := rfl
@[simp] theorem State.resetWith_h : (State.resetWith cfg).h = List.replicate cfg.nh none := rfl
@[simp] theorem State.resetWith_q : (State.resetWith cfg).q = List.replicate cfg.nq none := rfl
@[simp] theorem State.resetWith_fb : (State.resetWith cfg).fb = [] := rfl
@[simp] theorem State.resetWith_l2 : (State.resetWith cfg).l2 = none := rfl
@[simp] theorem State.resetWith_l3 : (State.resetWith cfg).l3 = none := rfl
@[simp] theorem State.resetWith_faBuf : (State.resetWith cfg).faBuf = [] := rfl
@[simp] theorem State.resetWith_mem : (State.resetWith cfg).mem = [] := rfl
@[simp] theorem State.resetWith_cfg : (State.resetWith cfg).cfg = cfg := rfl
@[simp] theorem State.resetWith_draws : (State.resetWith cfg).draws = 0 := rfl
@[simp] theorem State.resetWith_pending : (State.resetWith cfg).pending = [] := rfl
@[simp] theorem State.resetWith_rdata : (State.resetWith cfg).rdata = 0 := rfl

end

/-- Reset is the reset of the default parameters (R6). -/
theorem State.reset_eq : State.reset = State.resetWith Config.default := rfl

end Sys2Proof.Machine
end

