-- ==== Sys2Proof/Laws/Ops.lean ====
section
/-! SUPPORT. The shared operations: for each, once, everything it can do. Provers cite these and do
not unfold the operations. -/

namespace Sys2Proof.Machine

theorem next_eq_next {a b : State} :
    (Host.Outcome.next a : StepResult) = .next b ↔ a = b := by simp

/-! ### The end of a command -/

theorem State.done_eq (s : State) : s.done = .next (s.withStatus .ok) := rfl

theorem State.raise_eq (s : State) (c : StatusCode) : s.raise c = .next (s.withStatus c) := rfl

theorem State.done_next {s t : State} (h : s.done = .next t) : t = s.withStatus .ok := by
  simpa [State.done, eq_comm] using h

theorem State.raise_next {s t : State} {c : StatusCode} (h : s.raise c = .next t) :
    t = s.withStatus c := by
  simpa [State.raise, eq_comm] using h

/-! ### Register files -/

theorem regRead_of_getElem? {α : Type} {file : List (Option α)} {i : RegIdx} {x : Option α}
    (h : file[i.val]? = some x) : regRead file i = x := by
  simp [regRead, h]

theorem regRead_eq_some {α : Type} {file : List (Option α)} {i : RegIdx} {x : α} :
    regRead file i = some x ↔ file[i.val]? = some (some x) := by
  simp [regRead, Option.join_eq_some_iff]

theorem getElem?_regWrite_self {α : Type} {file : List (Option α)} {i : RegIdx} {x : α}
    (h : i.val < file.length) : (regWrite file i x)[i.val]? = some (some x) := by
  simp [regWrite, h]

theorem getElem?_regWrite_ne {α : Type} {file : List (Option α)} {i : RegIdx} {x : α} {k : Nat}
    (h : i.val ≠ k) : (regWrite file i x)[k]? = file[k]? := by
  simp [regWrite, h]

@[simp] theorem length_regWrite {α : Type} (file : List (Option α)) (i : RegIdx) (x : α) :
    (regWrite file i x).length = file.length := by
  simp [regWrite]

/-- What a register file holds after a write: the new value, or what it held. -/
theorem mem_regWrite {α : Type} {file : List (Option α)} {i : RegIdx} {x : α} {y : Option α}
    (h : y ∈ regWrite file i x) : y ∈ file ∨ y = some x :=
  List.mem_or_eq_of_mem_set h

/-! ### Operand forms: the check holds and the command goes on, or it ends with the code -/

section
variable {s t : State}

theorem State.command_legal {i : Instr} {k : StepResult} (h : i.wellFormed s.cfg = true) :
    s.command i k = k := by simp [State.command, h]

theorem State.command_illegal {i : Instr} {k : StepResult} (h : i.wellFormed s.cfg = false) :
    s.command i k = s.raise .illegalCommand := by simp [State.command, h]

theorem State.command_next {i : Instr} {k : StepResult} (h : s.command i k = .next t) :
    (i.wellFormed s.cfg = true ∧ k = .next t) ∨
    (i.wellFormed s.cfg = false ∧ t = s.withStatus .illegalCommand) := by
  cases hw : i.wellFormed s.cfg with
  | true => rw [State.command_legal hw] at h; exact .inl ⟨rfl, h⟩
  | false => rw [State.command_illegal hw] at h; exact .inr ⟨rfl, State.raise_next h⟩

theorem State.withBfRaw_next {i : RegIdx} {k : BitField → StepResult}
    (h : s.withBfRaw i k = .next t) :
    (∃ b, s.bfReg i = some b ∧ k b = .next t) ∨
    (s.bfReg i = none ∧ t = s.withStatus .notInitialised) := by
  unfold State.withBfRaw at h
  split at h
  · exact .inr ⟨‹_›, State.raise_next h⟩
  · exact .inl ⟨_, ‹_›, h⟩

theorem State.withBf_next {i : RegIdx} {k : BitField → StepResult} (h : s.withBf i k = .next t) :
    (∃ b, s.bfReg i = some b ∧ b.value < 2 ^ b.width ∧ k b = .next t) ∨
    (∃ b, s.bfReg i = some b ∧ 2 ^ b.width ≤ b.value ∧ t = s.withStatus .lengthError) ∨
    (s.bfReg i = none ∧ t = s.withStatus .notInitialised) := by
  rcases State.withBfRaw_next h with ⟨b, hb, hk⟩ | hn
  · split at hk
    · exact .inr (.inl ⟨b, hb, ‹_›, State.raise_next hk⟩)
    · exact .inl ⟨b, hb, by omega, hk⟩
  · exact .inr (.inr hn)

theorem State.withH_next {i : RegIdx} {k : Header → StepResult} (h : s.withH i k = .next t) :
    (∃ x, s.hReg i = some x ∧ k x = .next t) ∨
    (s.hReg i = none ∧ t = s.withStatus .notInitialised) := by
  unfold State.withH at h
  split at h
  · exact .inr ⟨‹_›, State.raise_next h⟩
  · exact .inl ⟨_, ‹_›, h⟩

theorem State.withQ_next {i : RegIdx} {k : Predicate → StepResult} (h : s.withQ i k = .next t) :
    (∃ p, s.qReg i = some p ∧ k p = .next t) ∨
    (s.qReg i = none ∧ t = s.withStatus .notInitialised) := by
  unfold State.withQ at h
  split at h
  · exact .inr ⟨‹_›, State.raise_next h⟩
  · exact .inl ⟨_, ‹_›, h⟩

theorem State.withTag_next {imm : Imm} {k : Tag → StepResult} (h : s.withTag imm k = .next t) :
    (∃ g, tagOfCode imm.val = some g ∧ k g = .next t) ∨
    (tagOfCode imm.val = none ∧ t = s.withStatus .illegalCommand) := by
  unfold State.withTag at h
  split at h
  · exact .inr ⟨‹_›, State.raise_next h⟩
  · exact .inl ⟨_, ‹_›, h⟩

theorem State.withSlot_next {slot : Option Header} {k : Header → StepResult}
    (h : s.withSlot slot k = .next t) :
    (∃ x, slot = some x ∧ k x = .next t) ∨
    (slot = none ∧ t = s.withStatus .layerAbsent) := by
  cases slot with
  | none => exact .inr ⟨rfl, State.raise_next h⟩
  | some x => exact .inl ⟨x, rfl, h⟩

/-- The shape of the checks that end with one code. -/
theorem State.check_next {P : Prop} [Decidable P] {k : StepResult} {c : StatusCode}
    (h : (if P then k else s.raise c) = .next t) :
    (P ∧ k = .next t) ∨ (¬ P ∧ t = s.withStatus c) := by
  split at h
  · exact .inl ⟨‹_›, h⟩
  · exact .inr ⟨‹_›, State.raise_next h⟩

theorem State.withField_next {g : Tag} {id : Nat} {k : StepResult}
    (h : s.withField g id k = .next t) :
    (id < nfields g ∧ k = .next t) ∨ (¬ id < nfields g ∧ t = s.withStatus .badField) :=
  State.check_next h

theorem State.withFits_next {g : Tag} {id v : Nat} {k : StepResult}
    (h : s.withFits g id v k = .next t) :
    (v < 2 ^ fieldWidth s.cfg.flagsWidth g id ∧ k = .next t) ∨
    (¬ v < 2 ^ fieldWidth s.cfg.flagsWidth g id ∧ t = s.withStatus .lengthError) :=
  State.check_next h

theorem State.withRange_next {off n : Nat} {k : StepResult} (h : s.withRange off n k = .next t) :
    (off + n ≤ s.cfg.memSize ∧ k = .next t) ∨
    (¬ off + n ≤ s.cfg.memSize ∧ t = s.withStatus .outOfRange) :=
  State.check_next h

theorem State.withRoom_next {n : Nat} {k : StepResult} (h : s.withRoom n k = .next t) :
    (s.fb.length + n ≤ s.cfg.fbCapBits ∧ k = .next t) ∨
    (¬ s.fb.length + n ≤ s.cfg.fbCapBits ∧ t = s.withStatus .overflow) :=
  State.check_next h

theorem State.withFbRange_next {a b : Nat} {k : StepResult} (h : s.withFbRange a b k = .next t) :
    ((a ≤ b ∧ b ≤ s.fb.length) ∧ k = .next t) ∨
    (¬ (a ≤ b ∧ b ≤ s.fb.length) ∧ t = s.withStatus .outOfRange) :=
  State.check_next h

theorem State.withWholeBytes_next {n : Nat} {k : StepResult}
    (h : s.withWholeBytes n k = .next t) :
    (n % 8 = 0 ∧ k = .next t) ∨ (¬ n % 8 = 0 ∧ t = s.withStatus .alignmentError) :=
  State.check_next h

theorem State.withVariant_next {x : Header} {g : Tag} {k : StepResult}
    (h : s.withVariant x g k = .next t) :
    (x.tag = g ∧ k = .next t) ∨ (¬ x.tag = g ∧ t = s.withStatus .unwrapHeaderError) :=
  State.check_next h

/-! ### Shared command bodies -/

theorem State.createHeader_next {g : Tag} {i : RegIdx} (h : s.createHeader g i = .next t) :
    (∃ x, s.hReg i = some x ∧ x.tag = g ∧ s.arg0.toNat + headerSize g ≤ s.cfg.memSize ∧
      t = ((s.memWrite s.arg0.toNat (encodeHeader s.cfg.flagsWidth x)).setRes0
        (headerSize g)).withStatus .ok) ∨
    ∃ c, (c = .notInitialised ∨ c = .unwrapHeaderError ∨ c = .outOfRange) ∧
      t = s.withStatus c := by
  rcases State.withH_next h with ⟨x, hx, h⟩ | ⟨-, h⟩
  · rcases State.withVariant_next h with ⟨hg, h⟩ | ⟨-, h⟩
    · rcases State.withRange_next h with ⟨hr, h⟩ | ⟨-, h⟩
      · exact .inl ⟨x, hx, hg, hr, State.done_next h⟩
      · exact .inr ⟨_, .inr (.inr rfl), h⟩
    · exact .inr ⟨_, .inr (.inl rfl), h⟩
  · exact .inr ⟨_, .inl rfl, h⟩

theorem State.parseHeader_next {g : Tag} {i : RegIdx} (h : s.parseHeader g i = .next t) :
    (s.arg0.toNat + s.arg1.toNat ≤ s.cfg.memSize ∧
      t = (s.drawn.setH i (decodeHeader s.cfg.flagsWidth g
        (s.memBytes s.arg0.toNat s.arg1.toNat))).withStatus .ok) ∨
    t = s.withStatus .outOfRange := by
  rcases State.withRange_next h with ⟨hr, h⟩ | ⟨-, h⟩
  · exact .inl ⟨hr, State.done_next h⟩
  · exact .inr h

theorem State.matchHeader_next {p : Predicate} {x : Header} (h : s.matchHeader p x = .next t) :
    (p.tag = x.tag ∧ t = (s.setRes0 (predicateMatches p x).toNat).withStatus .ok) ∨
    (p.tag ≠ x.tag ∧ s.cfg.tagMismatch = .noMatch ∧ t = (s.setRes0 0).withStatus .ok) ∨
    (p.tag ≠ x.tag ∧ s.cfg.tagMismatch = .unwrap ∧ t = s.withStatus .unwrapHeaderError) := by
  unfold State.matchHeader at h
  split at h
  · exact .inl ⟨‹_›, State.done_next h⟩
  · split at h
    · exact .inr (.inl ⟨‹_›, ‹_›, State.done_next h⟩)
    · exact .inr (.inr ⟨‹_›, ‹_›, State.raise_next h⟩)

/-! ### Steps -/

theorem step_idle (h : s.pending = []) : step s = .next s := by simp [step, h]

theorem step_pending {a : HostAccess} {rest : List HostAccess} (h : s.pending = a :: rest) :
    step s = (s.setPending rest).hostAccess a := by simp [step, h]

theorem State.runCommand_ok {w : Word} {i : Instr} (h : decode w = .ok i) :
    s.runCommand w = exec i s := by simp [State.runCommand, h]

theorem State.runCommand_error {w : Word} {e : DecodeError} (h : decode w = .error e) :
    s.runCommand w = s.raise .illegalCommand := by simp [State.runCommand, h]

/-- Everything a host write can do. -/
theorem State.hostWrite_next {size : AccessSize} {off : Nat} {v : Word}
    (h : s.hostWrite size off v = .next t) :
    (∃ r, hostTarget s.cfg off = .reg r ∧ size = .b64 ∧ s.writeReg r v = .next t) ∨
    (∃ a, hostTarget s.cfg off = .mem a ∧ size = .b8 ∧ t = s.memWrite a [v.setWidth 8]) := by
  unfold State.hostWrite at h
  split at h
  · split at h
    · exact .inl ⟨_, ‹_›, ‹_›, h⟩
    · cases h
  · split at h
    · exact .inr ⟨_, ‹_›, ‹_›, by simpa [eq_comm] using h⟩
    · cases h
  all_goals cases h

/-- Everything a host read can do. -/
theorem State.hostRead_next {size : AccessSize} {off : Nat} (h : s.hostRead size off = .next t) :
    (∃ r, hostTarget s.cfg off = .reg r ∧ size = .b64 ∧ t = s.setRdata (s.readReg r)) ∨
    (∃ a, hostTarget s.cfg off = .mem a ∧ size = .b8 ∧
      t = s.drawn.setRdata ((s.memByte a).setWidth 64)) := by
  unfold State.hostRead at h
  split at h
  · split at h
    · exact .inl ⟨_, ‹_›, ‹_›, by simpa [eq_comm] using h⟩
    · cases h
  · split at h
    · exact .inr ⟨_, ‹_›, ‹_›, by simpa [eq_comm] using h⟩
    · cases h
  all_goals cases h

/-- Everything a host write of a register can do. -/
theorem State.writeReg_next {r : HostReg} {v : Word} (h : s.writeReg r v = .next t) :
    (r = .ctrl ∧ t = if v.getLsbD 0 then s.softReset else s) ∨
    (r = .status ∧ t = s.setStatus (statusHostWrite s.status v)) ∨
    (r = .cmd ∧ (s.setCmd v).runCommand v = .next t) ∨
    (r = .arg0 ∧ t = { s with arg0 := v }) ∨
    (r = .arg1 ∧ t = { s with arg1 := v }) ∨
    (r = .arg2 ∧ t = { s with arg2 := v }) ∨
    (r = .arg3 ∧ t = { s with arg3 := v }) ∨
    ((r = .res0 ∨ r = .res1 ∨ r = .fbLen ∨ r = .faLen) ∧ t = s) := by
  cases r
  case cmd => exact .inr (.inr (.inl ⟨rfl, h⟩))
  all_goals
    have ht := next_eq_next.1 h
    subst ht
    simp

/-- The window map and its offsets agree (R67). -/
theorem hostRegAt_eq {off : Nat} {r : HostReg} (h : hostRegAt off = some r) :
    off = hostRegOffset r := by
  unfold hostRegAt at h
  split at h
  all_goals first | (cases h; rfl) | cases h

/-- A register is found at its offset (R67). -/
theorem hostTarget_hostRegOffset (cfg : Config) (r : HostReg) :
    hostTarget cfg (hostRegOffset r) = .reg r := by
  cases r <;> rfl

/-- A register target is at the register's offset (R67). -/
theorem hostTarget_reg {cfg : Config} {off : Nat} {r : HostReg}
    (h : hostTarget cfg off = .reg r) : off = hostRegOffset r := by
  unfold hostTarget at h
  split at h
  · cases hr : hostRegAt off with
    | some r' =>
      rw [hr] at h
      have hrr := HostTarget.reg.inj h
      subst hrr
      exact hostRegAt_eq hr
    | none =>
      rw [hr] at h
      dsimp only at h
      split at h <;> cases h
  · split at h <;> cases h

/-- Everything a step can do: nothing when no access is pending, else the next access. -/
theorem step_next (h : step s = .next t) :
    (s.pending = [] ∧ t = s) ∨
    ∃ a rest, s.pending = a :: rest ∧ (s.setPending rest).hostAccess a = .next t := by
  cases hp : s.pending with
  | nil => rw [step_idle hp] at h; exact .inl ⟨rfl, (next_eq_next.1 h).symm⟩
  | cons a rest => rw [step_pending hp] at h; exact .inr ⟨a, rest, rfl, h⟩

/-- An address of the MEM window is inside MEM (R67). -/
theorem hostTarget_mem {cfg : Config} {off a : Nat} (h : hostTarget cfg off = .mem a) :
    off = 0x1000 + a ∧ a < cfg.memSize := by
  unfold hostTarget at h
  by_cases h1 : off < memWindowBase
  · rw [if_pos h1] at h
    cases hr : hostRegAt off with
    | some r => rw [hr] at h; cases h
    | none =>
      rw [hr] at h
      dsimp only at h
      split at h <;> cases h
  · rw [if_neg h1] at h
    split at h
    · have ha := HostTarget.mem.inj h
      simp only [memWindowBase] at *
      omega
    · cases h

end

end Sys2Proof.Machine
end

