-- ==== Sys2Proof/Laws/PerInstr.lean ====
section
/-! SUPPORT. Facts about every instruction as syntax, one lemma per constructor. -/

namespace Sys2Proof

/-- A packed word has zeros in RSV, bits 63:24 (R80). -/
theorem packFields_rsv (opc : Nat) (a b : RegIdx) (imm : Imm) (h : opc < 256) :
    (packFields opc a b imm).toNat < 2 ^ 24 := by
  have := a.isLt; have := b.isLt; have := imm.isLt
  simp only [packFields, BitVec.toNat_ofNat]
  omega

end Sys2Proof

namespace Sys2Proof.Laws.ReservedZero

/-- The word of an instruction has RSV = 0 (R80, check (1) of R83). -/
def Statement (i : Instr) : Prop := (encode i).toNat < 2 ^ 24

theorem nop : Statement (.nop) := packFields_rsv _ _ _ _ (by decide)
theorem bfNew (bd : RegIdx) (width : Imm) : Statement (.bfNew bd width) := packFields_rsv _ _ _ _ (by decide)
theorem bfBits (bs : RegIdx) : Statement (.bfBits bs) := packFields_rsv _ _ _ _ (by decide)
theorem bfVal (bs : RegIdx) : Statement (.bfVal bs) := packFields_rsv _ _ _ _ (by decide)
theorem bfEq (ba bb : RegIdx) : Statement (.bfEq ba bb) := packFields_rsv _ _ _ _ (by decide)
theorem fbClr : Statement (.fbClr) := packFields_rsv _ _ _ _ (by decide)
theorem fbAppb : Statement (.fbAppb) := packFields_rsv _ _ _ _ (by decide)
theorem fbAppf (bs : RegIdx) : Statement (.fbAppf bs) := packFields_rsv _ _ _ _ (by decide)
theorem fbSlb : Statement (.fbSlb) := packFields_rsv _ _ _ _ (by decide)
theorem fbSly : Statement (.fbSly) := packFields_rsv _ _ _ _ (by decide)
theorem fbTob : Statement (.fbTob) := packFields_rsv _ _ _ _ (by decide)
theorem hdrInit (hd : RegIdx) (tag : Imm) : Statement (.hdrInit hd tag) := packFields_rsv _ _ _ _ (by decide)
theorem hdrSet (hd : RegIdx) (field : Imm) : Statement (.hdrSet hd field) := packFields_rsv _ _ _ _ (by decide)
theorem hdrGet (hs : RegIdx) (field : Imm) : Statement (.hdrGet hs field) := packFields_rsv _ _ _ _ (by decide)
theorem hdrTag (hs : RegIdx) : Statement (.hdrTag hs) := packFields_rsv _ _ _ _ (by decide)
theorem hdrCopy (hd hs : RegIdx) : Statement (.hdrCopy hd hs) := packFields_rsv _ _ _ _ (by decide)
theorem hdrUnwrap (hs : RegIdx) (tag : Imm) : Statement (.hdrUnwrap hs tag) := packFields_rsv _ _ _ _ (by decide)
theorem ethCreate (hs : RegIdx) : Statement (.ethCreate hs) := packFields_rsv _ _ _ _ (by decide)
theorem ethParse (hd : RegIdx) : Statement (.ethParse hd) := packFields_rsv _ _ _ _ (by decide)
theorem arpCreate (hs : RegIdx) : Statement (.arpCreate hs) := packFields_rsv _ _ _ _ (by decide)
theorem arpParse (hd : RegIdx) : Statement (.arpParse hd) := packFields_rsv _ _ _ _ (by decide)
theorem ip4Create (hs : RegIdx) : Statement (.ip4Create hs) := packFields_rsv _ _ _ _ (by decide)
theorem ip4Parse (hd : RegIdx) : Statement (.ip4Parse hd) := packFields_rsv _ _ _ _ (by decide)
theorem faNew : Statement (.faNew) := packFields_rsv _ _ _ _ (by decide)
theorem faSet (hs : RegIdx) : Statement (.faSet hs) := packFields_rsv _ _ _ _ (by decide)
theorem faGet (hd : RegIdx) (layer : Imm) : Statement (.faGet hd layer) := packFields_rsv _ _ _ _ (by decide)
theorem faParse : Statement (.faParse) := packFields_rsv _ _ _ _ (by decide)
theorem faBuild : Statement (.faBuild) := packFields_rsv _ _ _ _ (by decide)
theorem faRead : Statement (.faRead) := packFields_rsv _ _ _ _ (by decide)
theorem qInit (qd : RegIdx) (tag : Imm) : Statement (.qInit qd tag) := packFields_rsv _ _ _ _ (by decide)
theorem qSet (qd : RegIdx) (field : Imm) : Statement (.qSet qd field) := packFields_rsv _ _ _ _ (by decide)
theorem qAny (qd : RegIdx) (field : Imm) : Statement (.qAny qd field) := packFields_rsv _ _ _ _ (by decide)
theorem qMatch (qs hs : RegIdx) : Statement (.qMatch qs hs) := packFields_rsv _ _ _ _ (by decide)
theorem qMatchfa (qs : RegIdx) : Statement (.qMatchfa qs) := packFields_rsv _ _ _ _ (by decide)

end Sys2Proof.Laws.ReservedZero
end

