-- ==== Sys2Proof/Tests/Slice0.lean ====
section
/-! SUPPORT. Tests of the model against the vectors of 95_test_vectors.md and the encodings of
30_encoding.md, the ill-formed terms that WellFormed refuses, and one witness for every statement
with hypotheses. -/

namespace Sys2Proof.Tests

open Sys2Proof Sys2Proof.Machine Sys2Proof.Claims

/-! ### Helpers -/

/-- The outcome is a next state with property p. -/
def gives (r : StepResult) (p : State → Bool) : Bool :=
  match r with
  | .next t => p t
  | .fault _ => false
  | .refused _ => false

/-- The outcome is this refusal. -/
def refuses (r : StepResult) (x : Refusal) : Bool :=
  match r with
  | .next _ => false
  | .fault _ => false
  | .refused y => decide (x = y)

/-- One step in which the host writes the word w to CMD. -/
def cmd (w : Nat) (s : State) : StepResult := step (s.withFetchWord 64 w)

/-- One step in which the host makes access a. -/
def acc (a : HostAccess) (s : State) : StepResult := step (s.setPending [a])

def args (a0 a1 a2 : Word) (s : State) : State := { s with arg0 := a0, arg1 := a1, arg2 := a2 }

def setBytes (off : Nat) (B : List Byte) (s : State) : State := s.memWrite off B

/-- The n bytes that MEM lists from `off` on. -/
def listed (m : Memory) (off n : Nat) : List (Option Byte) :=
  (List.range n).map fun k => Memory.read? m (off + k)

/-- V-ETH-1 -/
def ethH : Header := ⟨.ethernet, [0xCCCCCCCCCCDD, 0xAAAAAAAAAABB, 1]⟩
/-- V-ARP-1 -/
def arpH : Header :=
  ⟨.arp, [1, 0x0800, 6, 4, 1, 0xAAAAAAAAAAAA, 0xC0A80164, 0xBBBBBBBBBBBB, 0xC0A80165]⟩
/-- V-IP4-1 -/
def ipH : Header := ⟨.ipv4, [4, 5, 0, 20, 0x1234, 2, 0, 64, 6, 0, 0xC0A80101, 0xC0A80A02]⟩

def ethBytes : List Byte :=
  [0xcc, 0xcc, 0xcc, 0xcc, 0xcc, 0xdd, 0xaa, 0xaa, 0xaa, 0xaa, 0xaa, 0xbb, 0x00, 0x01]
def arpBytes : List Byte :=
  [0x00, 0x01, 0x08, 0x00, 0x06, 0x04, 0x00, 0x01, 0xaa, 0xaa, 0xaa, 0xaa, 0xaa, 0xaa] ++
  [0xc0, 0xa8, 0x01, 0x64, 0xbb, 0xbb, 0xbb, 0xbb, 0xbb, 0xbb, 0xc0, 0xa8, 0x01, 0x65]
def ipBytes : List Byte :=
  [0x45, 0x00, 0x00, 0x14, 0x12, 0x34, 0x40, 0x00, 0x40, 0x06, 0x00, 0x00] ++
  [0xc0, 0xa8, 0x01, 0x01, 0xc0, 0xa8, 0x0a, 0x02]

/-- A state with something in every kind of register, and something Empty. -/
def s1 : State :=
  { State.reset with
    bf := [some ⟨8, 5⟩, some ⟨16, 5⟩, some ⟨8, 6⟩, some ⟨64, 2 ^ 64 - 1⟩, none, none, none, none]
    h := [some ethH, some arpH, some ipH, none]
    q := [some ⟨.arp, [none, none, none, none, some 2, none, none, none, none]⟩, none,
      some ⟨.ethernet, [none, none, none]⟩, none]
    fb := bytesToBits [0x12, 0x34]
    l2 := some ethH
    l3 := some arpH
    mem := [(0, 0x12), (1, 0x34), (2047, 0xff)] }

/-- A state that no run reaches: BitFields that break R30. -/
def s1Bad : State := { s1 with bf := [some ⟨3, 8⟩, none, none, none, none, none, none, none] }

def s1Unwrap : State := { s1 with cfg := { Config.default with tagMismatch := .unwrap } }

/-! ### WellFormed: an ill-formed term for each check (R83 (4) and (5), R86) -/

theorem test_wf_bf_index : (Instr.bfNew 8 16).wellFormed Config.default = false := by decide
theorem test_wf_bf_second_index : (Instr.bfEq 7 8).wellFormed Config.default = false := by decide
theorem test_wf_h_index : (Instr.hdrInit 4 1).wellFormed Config.default = false := by decide
theorem test_wf_h_second_index : (Instr.hdrCopy 3 4).wellFormed Config.default = false := by decide
theorem test_wf_q_index : (Instr.qMatchfa 4).wellFormed Config.default = false := by decide
theorem test_wf_match_h_index : (Instr.qMatch 3 4).wellFormed Config.default = false := by decide
theorem test_wf_tags : ∀ t ∈ [(0 : Imm), 4, 5, 6, 255],
    (Instr.hdrInit 0 t).wellFormed Config.default = false ∧
    (Instr.hdrUnwrap 0 t).wellFormed Config.default = false ∧
    (Instr.qInit 0 t).wellFormed Config.default = false := by decide +kernel
theorem test_wf_layers : ∀ l ∈ [(0 : Imm), 1, 4, 255],
    (Instr.faGet 0 l).wellFormed Config.default = false := by decide +kernel
theorem test_wf_largest : (Instr.bfNew 7 255).wellFormed Config.default = true ∧
    (Instr.hdrSet 3 255).wellFormed Config.default = true ∧
    (Instr.qMatch 3 3).wellFormed Config.default = true := by decide

/-! ### Decoding: words written from the encoding of R80 and the opcode map of R84 -/

/-- The decoder's answer, in a form that can be compared. -/
def decoded (w : Word) : Option Instr := (decode w).toOption

theorem test_decode_system_bf :
    decoded 0x0000000000000000 = some .nop ∧
    decoded 0x0000000000100310 = some (.bfNew 3 16) ∧
    decoded 0x0000000000000711 = some (.bfBits 7) ∧
    decoded 0x0000000000000012 = some (.bfVal 0) ∧
    decoded 0x0000000000005413 = some (.bfEq 4 5) := by decide

theorem test_decode_fb :
    decoded 0x0000000000000020 = some .fbClr ∧
    decoded 0x0000000000000021 = some .fbAppb ∧
    decoded 0x0000000000000122 = some (.fbAppf 1) ∧
    decoded 0x0000000000000023 = some .fbSlb ∧
    decoded 0x0000000000000024 = some .fbSly ∧
    decoded 0x0000000000000025 = some .fbTob := by decide

theorem test_decode_hdr :
    decoded 0x0000000000010130 = some (.hdrInit 1 1) ∧
    decoded 0x0000000000080131 = some (.hdrSet 1 8) ∧
    decoded 0x0000000000090032 = some (.hdrGet 0 9) ∧
    decoded 0x0000000000000333 = some (.hdrTag 3) ∧
    decoded 0x0000000000001234 = some (.hdrCopy 2 1) ∧
    decoded 0x0000000000030035 = some (.hdrUnwrap 0 3) := by decide

theorem test_decode_codecs :
    decoded 0x0000000000000040 = some (.ethCreate 0) ∧
    decoded 0x0000000000000141 = some (.ethParse 1) ∧
    decoded 0x0000000000000042 = some (.arpCreate 0) ∧
    decoded 0x0000000000000143 = some (.arpParse 1) ∧
    decoded 0x0000000000000244 = some (.ip4Create 2) ∧
    decoded 0x0000000000000345 = some (.ip4Parse 3) := by decide

theorem test_decode_fa :
    decoded 0x0000000000000050 = some .faNew ∧
    decoded 0x0000000000000151 = some (.faSet 1) ∧
    decoded 0x0000000000030052 = some (.faGet 0 3) ∧
    decoded 0x0000000000000053 = some .faParse ∧
    decoded 0x0000000000000054 = some .faBuild ∧
    decoded 0x0000000000000055 = some .faRead := by decide

theorem test_decode_q :
    decoded 0x0000000000020060 = some (.qInit 0 2) ∧
    decoded 0x0000000000040061 = some (.qSet 0 4) ∧
    decoded 0x0000000000030262 = some (.qAny 2 3) ∧
    decoded 0x0000000000002163 = some (.qMatch 1 2) ∧
    decoded 0x0000000000000064 = some (.qMatchfa 0) := by decide

/-- V-E-8 to V-E-11: the words that have no instruction. -/
theorem test_decode_refuses :
    decode 0x0000000001000000 = .error .reservedBits ∧
    decode 0x0000000000000001 = .error .unknownOpcode ∧
    decode 0x0000000000000150 = .error .unusedField ∧
    decode 0x0000000000010020 = .error .unusedField ∧
    decode 0x8000000000000000 = .error .reservedBits ∧
    decode 0x0000000000001010 = .error .unusedField ∧
    decode 0x00000000000000ff = .error .unknownOpcode := by
  refine ⟨rfl, rfl, rfl, rfl, rfl, rfl, rfl⟩

/-- The match and mask words of spec/opcode_table.json: a form with no field, with A, with A and B,
with A and IMM. -/
theorem test_masks :
    opcodeTable.map OpcodeRow.matchWord =
      [0x00, 0x10, 0x11, 0x12, 0x13, 0x20, 0x21, 0x22, 0x23, 0x24, 0x25] ++
      [0x30, 0x31, 0x32, 0x33, 0x34, 0x35, 0x40, 0x41, 0x42, 0x43, 0x44, 0x45] ++
      [0x50, 0x51, 0x52, 0x53, 0x54, 0x55, 0x60, 0x61, 0x62, 0x63, 0x64] ∧
    ((opcodeTable.filter fun r => r.mnemonic ∈ ["NOP", "BF.NEW", "BF.BITS", "BF.EQ"]).map
      OpcodeRow.maskWord) =
      [0xFFFFFFFFFFFFFFFF, 0xFFFFFFFFFF00F0FF, 0xFFFFFFFFFFFFF0FF, 0xFFFFFFFFFFFF00FF] := by
  decide

/-- R88 -/
theorem test_asm :
    asm (.bfNew 3 16) = "bf.new b3, 16" ∧ asm (.qMatch 1 2) = "q.match q1, h2" ∧
    asm (.hdrInit 0 2) = "hdr.init h0, arp" ∧ asmFieldId .three "arp" "opcode" = some 4 ∧
    asmFieldId .two "ip4" "flags" = some 5 ∧ asmFieldId .three "eth" "ethertype" = some 2 := by
  decide

/-- R64 with the addresses of V-ARP-1. -/
theorem test_address_values : macValue 0xcc 0xcc 0xcc 0xcc 0xcc 0xdd = 0xCCCCCCCCCCDD ∧
    ipv4Value 192 168 1 100 = 0xC0A80164 := by decide

/-! ### Fetch: what the host's two entry points do -/

theorem test_table_word : decodeTableWord 64 0x2163 = some (.qMatch 1 2) ∧
    decodeTableWord 64 0x1000000 = none := by decide

/-- V-S-8: CMD reads back the word, and the command ran. -/
theorem test_fetch_word : gives (cmd 0x1234 State.reset)
    (fun t => t.cmd == 0x1234 && t.status == 0x111 && t.pending.isEmpty) = true := by decide

/-! ### NOP and BitFields (V-S-3, V-BF) -/

theorem test_nop_keeps_err : gives (cmd 0x0 { s1 with status := 0x111 })
    (fun t => t.status == 0x100 && t == { s1 with status := 0x100 }) = true := by decide
theorem test_bfNew : gives (cmd 0x100010 { s1 with arg0 := 0x800 })
    (fun t => t.status == 0 && t.bf.take 1 == [some ⟨16, 0x800⟩]) = true := by decide
theorem test_bfNew_length : gives (cmd 0x30410 { s1 with arg0 := 8 })
    (fun t => t.status == 0x101 && t.bf == s1.bf) = true := by decide
theorem test_bfBits : gives (cmd 0x111 s1)
    (fun t => t.status == 0 && t.res0 == 5 && t.res1 == 16) = true := by decide
theorem test_bfBits_widest : gives (cmd 0x311 s1)
    (fun t => t.status == 0 && t.res0 == 0xFFFFFFFFFFFFFFFF && t.res1 == 64) = true := by decide
theorem test_bfVal : gives (cmd 0x212 { s1 with res1 := 9 })
    (fun t => t.status == 0 && t.res0 == 6 && t.res1 == 9) = true := by decide
theorem test_bfVal_empty : gives (cmd 0x712 s1)
    (fun t => t.status == 0x111 && t.res0 == 0) = true := by decide
theorem test_bfEq_ignores_width : gives (cmd 0x1013 s1)
    (fun t => t.status == 0 && t.res0 == 1) = true := by decide
theorem test_bfEq_values : gives (cmd 0x2013 { s1 with res0 := 7 })
    (fun t => t.status == 0 && t.res0 == 0) = true := by decide

/-! ### FrameBuffer (V-FB) -/

theorem test_fbClr : gives (cmd 0x20 s1) (fun t => t.fb.isEmpty && t.status == 0) = true := by
  decide
theorem test_fbAppb : gives (cmd 0x21 (args 0 2 0 { s1 with fb := [true] }))
    (fun t => t.status == 0 &&
      t.fb == [true, false, false, false, true, false, false, true, false] ++
        [false, false, true, true, false, true, false, false]) = true := by decide
/-- V-FB-18, V-FB-19 -/
theorem test_fbAppb_errors :
    gives (cmd 0x21 (args 0 1 0
      { s1 with cfg := { Config.default with fbCapBits := 64 }, fb := List.replicate 64 true }))
      (fun t => t.status == 0x114) = true ∧
    gives (cmd 0x21 (args 2047 2 0 s1)) (fun t => t.status == 0x113) = true := by decide
/-- V-FB-1 -/
theorem test_fbAppf : gives (cmd 0x122
      { s1 with fb := [true, false, true], bf := [none, some ⟨5, 1⟩, none, none, none] })
    (fun t => t.status == 0 &&
      t.fb == [true, false, true, false, false, false, false, true]) = true := by decide
/-- V-FB-8 -/
theorem test_fbSlb : gives (cmd 0x23 (args 0 16 0 s1))
    (fun t => t.status == 0 && t.res0 == 0x1234 && t.res1 == 16) = true := by decide
/-- V-FB-7, V-FB-9, V-FB-10 -/
theorem test_fbSlb_range :
    gives (cmd 0x23 (args 5 4 0 s1)) (fun t => t.status == 0x113) = true ∧
    gives (cmd 0x23 (args 0 17 0 s1)) (fun t => t.status == 0x113) = true ∧
    gives (cmd 0x23 (args 8 8 0 { s1 with res0 := 3, res1 := 3 }))
      (fun t => t.status == 0 && t.res0 == 0 && t.res1 == 0) = true := by decide
/-- V-FB-5 -/
theorem test_fbSly : gives (cmd 0x24 (args 4 12 0x40 s1))
    (fun t => t.status == 0 && t.res0 == 1 && listed t.mem 0x3F 3 == [none, some 0x23, none]) =
      true := by decide
/-- V-FB-6 -/
theorem test_fbSly_alignment : gives (cmd 0x24 (args 4 11 0x40 s1))
    (fun t => t.status == 0x102 && t.mem == s1.mem) = true := by decide
/-- V-FB-3 -/
theorem test_fbTob : gives (cmd 0x25 (args 0x100 0 0
      { s1 with fb := [true, false, true, false, false, false, false, true] }))
    (fun t => t.status == 0 && t.res0 == 1 && Memory.read? t.mem 0x100 == some 0xA1) = true := by
  decide
/-- V-FB-11 -/
theorem test_fbTob_alignment : gives (cmd 0x25 { s1 with fb := [true, false, true] })
    (fun t => t.status == 0x102 && t.mem == s1.mem) = true := by decide

/-! ### Header registers (V-H) -/

theorem test_hdrInit : gives (cmd 0x20330 s1)
    (fun t => t.status == 0 && t.h.drop 3 == [some ⟨.arp, [0, 0, 0, 0, 0, 0, 0, 0, 0]⟩]) = true := by
  decide
/-- V-H-3, V-H-4, V-H-5 -/
theorem test_hdrSet :
    gives (cmd 0x20131 { s1 with arg0 := 256 }) (fun t => t.status == 0x101 && t.h == s1.h) = true ∧
    gives (cmd 0x20131 { s1 with arg0 := 255 })
      (fun t => t.status == 0 && (regRead t.h 1).map (·.fields.take 4) == some [1, 0x800, 255, 4])
      = true ∧
    gives (cmd 0x90131 { s1 with arg0 := 255 }) (fun t => t.status == 0x112) = true := by decide
/-- V-H-9, V-H-10 -/
theorem test_hdrSet_flags_split :
    gives (cmd 0x60231 { s1 with arg0 := 8192 }) (fun t => t.status == 0x101) = true ∧
    gives (cmd 0x60231 { s1 with arg0 := 8192, cfg := { Config.default with flagsWidth := .two } })
      (fun t => t.status == 0) = true ∧
    gives (cmd 0x50231 { s1 with arg0 := 4, cfg := { Config.default with flagsWidth := .two } })
      (fun t => t.status == 0x101) = true := by decide
theorem test_hdrGet :
    gives (cmd 0x60132 s1) (fun t => t.status == 0 && t.res0 == 0xC0A80164) = true ∧
    gives (cmd 0x90132 s1) (fun t => t.status == 0x112) = true := by decide
/-- V-H-1, V-H-2 -/
theorem test_hdrTag : gives (cmd 0x333 { s1 with res0 := 9 })
      (fun t => t.status == 0 && t.res0 == 0) = true ∧
    gives (cmd 0x133 s1) (fun t => t.status == 0 && t.res0 == 2) = true := by decide
/-- V-H-8 -/
theorem test_hdrCopy :
    gives (cmd 0x1334 s1)
      (fun t => t.status == 0 && t.h == [some ethH, some arpH, some ipH, some arpH]) = true ∧
    gives (cmd 0x3234 s1) (fun t => t.status == 0x111 && t.h == s1.h) = true := by decide
/-- V-H-6 -/
theorem test_hdrUnwrap :
    gives (cmd 0x20135 s1) (fun t => t.status == 0) = true ∧
    gives (cmd 0x30135 s1) (fun t => t.status == 0x104) = true ∧
    gives (cmd 0x20335 s1) (fun t => t.status == 0x111) = true := by decide

/-! ### Codecs (V-ETH, V-ARP, V-IP4, V-C) -/

theorem test_ethCreate : gives (cmd 0x40 (args 0x100 0 0 s1))
    (fun t => t.status == 0 && t.res0 == 14 && listed t.mem 0x100 14 == ethBytes.map some) =
      true := by decide +kernel
/-- V-C-1, V-C-4 -/
theorem test_ethCreate_errors :
    gives (cmd 0x140 (args 0x100 0 0 s1)) (fun t => t.status == 0x104 && t.mem == s1.mem) = true ∧
    gives (cmd 0x340 (args 0x100 0 0 s1)) (fun t => t.status == 0x111) = true := by decide
theorem test_arpCreate : gives (cmd 0x142 (args 2020 0 0 s1))
    (fun t => t.status == 0 && t.res0 == 28 && listed t.mem 2020 28 == arpBytes.map some) =
      true := by decide +kernel
/-- V-C-2 -/
theorem test_arpCreate_range : gives (cmd 0x142 (args 2021 0 0 s1))
    (fun t => t.status == 0x113 && t.mem == s1.mem) = true := by decide
theorem test_ip4Create : gives (cmd 0x244 (args 0x200 0 0 s1))
    (fun t => t.status == 0 && t.res0 == 20 && listed t.mem 0x200 20 == ipBytes.map some) =
      true := by decide +kernel
/-- V-C-5: a short input is filled with zeros. -/
theorem test_ethParse_short : gives (cmd 0x41 (args 0 13 0 (setBytes 0
      [0x01, 0x02, 0x03, 0x04, 0x05, 0x06, 0x07, 0x08, 0x09, 0x0a, 0x0b, 0x0c, 0x08] s1)))
    (fun t => t.status == 0 &&
      regRead t.h 0 == some ⟨.ethernet, [0x010203040506, 0x0708090A0B0C, 0x0800]⟩) = true := by
  decide +kernel
/-- V-C-6 -/
theorem test_ethParse_empty : gives (cmd 0x141 (args 0 0 0 s1))
    (fun t => t.status == 0 && regRead t.h 1 == some ⟨.ethernet, [0, 0, 0]⟩) = true := by
  decide +kernel
theorem test_arpParse : gives (cmd 0x343 (args 0x120 28 0 (setBytes 0x120 arpBytes s1)))
    (fun t => t.status == 0 && regRead t.h 3 == some arpH) = true := by decide +kernel
/-- V-C-3 -/
theorem test_arpParse_range : gives (cmd 0x343 (args 2040 9 0 s1))
    (fun t => t.status == 0x113 && t.h == s1.h) = true := by decide
def splitBytes : List Byte :=
  [0x45, 0x00, 0x00, 0x14, 0x12, 0x34, 0x5f, 0xff, 0x40, 0x06, 0x00, 0x00] ++
  [0xc0, 0xa8, 0x01, 0x01, 0xc0, 0xa8, 0x0a, 0x02]
/-- V-IP4-3, FW = 3 -/
theorem test_ip4Parse_three : gives (cmd 0x345 (args 0x300 20 0 (setBytes 0x300 splitBytes s1)))
    (fun t => t.status == 0 && regRead t.h 3 ==
      some ⟨.ipv4, [4, 5, 0, 20, 0x1234, 2, 8191, 64, 6, 0, 0xC0A80101, 0xC0A80A02]⟩) = true := by
  decide +kernel
/-- V-IP4-3, FW = 2 -/
theorem test_ip4Parse_two : gives (cmd 0x345 (args 0x300 20 0 (setBytes 0x300 splitBytes
      { s1 with cfg := { Config.default with flagsWidth := .two } })))
    (fun t => t.status == 0 && regRead t.h 3 ==
      some ⟨.ipv4, [4, 5, 0, 20, 0x1234, 1, 8191, 64, 6, 0, 0xC0A80101, 0xC0A80A02]⟩) = true := by
  decide +kernel

/-! ### FrameAssembly (V-FA) -/

theorem test_faNew : gives (cmd 0x50 { s1 with faBuf := ethBytes })
    (fun t => t.status == 0 && t.l2.isNone && t.l3.isNone && t.faBuf.isEmpty) = true := by decide
theorem test_faSet :
    gives (cmd 0x51 { s1 with l2 := none, l3 := none })
      (fun t => t.status == 0 && t.l2 == some ethH && t.l3.isNone) = true ∧
    gives (cmd 0x251 s1) (fun t => t.status == 0 && t.l2 == some ethH && t.l3 == some ipH) =
      true := by decide
theorem test_faGet :
    gives (cmd 0x30352 s1) (fun t => t.status == 0 && regRead t.h 3 == some arpH) = true ∧
    gives (cmd 0x20352 s1) (fun t => t.status == 0 && regRead t.h 3 == some ethH) = true ∧
    gives (cmd 0x30352 { s1 with l3 := none }) (fun t => t.status == 0x115) = true := by decide
/-- V-FA-2: EtherType 1 is Unknown. -/
theorem test_faParse_unknown : gives (cmd 0x53 (args 0x300 42 0
      (setBytes 0x300 (ethBytes ++ arpBytes) { s1 with faBuf := ethBytes, l2 := none })))
    (fun t => t.status == 0 && t.l2 == some ethH && t.l3.isNone && t.faBuf.isEmpty) = true := by
  decide +kernel
/-- V-FA-5 -/
theorem test_faParse_arp : gives (cmd 0x53 (args 0x300 42 0
      (setBytes 0x30c [0x08, 0x06] (setBytes 0x300 (ethBytes ++ arpBytes) s1))))
    (fun t => t.status == 0 && t.l3 == some arpH) = true := by decide +kernel
/-- V-FA-1 -/
theorem test_faBuild : gives (cmd 0x54 s1) (fun t => t.status == 0 &&
      t.faBuf == ethBytes ++ arpBytes ++ List.replicate 18 0) = true := by decide +kernel
/-- V-FA-0, V-FA-0b, V-FA-7 -/
theorem test_faBuild_absent :
    gives (cmd 0x54 State.reset) (fun t => t.status == 0x115) = true ∧
    gives (cmd 0x54 { s1 with l2 := none }) (fun t => t.status == 0x115) = true ∧
    gives (cmd 0x54 { s1 with
        l2 := none, faBuf := [1], cfg := { Config.default with legacyEmptyBuild := true } })
      (fun t => t.status == 0 && t.faBuf.isEmpty) = true := by decide
theorem test_faRead : gives (cmd 0x55 (args 0x300 0 0 { s1 with faBuf := ethBytes }))
    (fun t => t.status == 0 && t.res0 == 14 && listed t.mem 0x300 14 == ethBytes.map some) =
      true := by decide +kernel
/-- V-FA-4: with FA_BUF empty nothing is written. -/
theorem test_faRead_empty : gives (cmd 0x55 (args 0x300 0 0 { s1 with res0 := 60 }))
    (fun t => t.status == 0 && t.res0 == 0 && t.mem == s1.mem) = true := by decide

/-! ### Matcher (V-Q) -/

theorem test_qInit : gives (cmd 0x20160 s1) (fun t => t.status == 0 && regRead t.q 1 ==
      some ⟨.arp, [none, none, none, none, none, none, none, none, none]⟩) = true := by decide
/-- V-Q-4, V-Q-5 -/
theorem test_qSet :
    gives (cmd 0x40061 { s1 with arg0 := 0x10000 })
      (fun t => t.status == 0x101 && t.q == s1.q) = true ∧
    gives (cmd 0x90061 s1) (fun t => t.status == 0x112) = true ∧
    gives (cmd 0x20261 { s1 with arg0 := 0xFFFF }) (fun t => t.status == 0 &&
      regRead t.q 2 == some ⟨.ethernet, [none, none, some 0xFFFF]⟩) = true := by decide
theorem test_qAny : gives (cmd 0x40062 s1) (fun t => t.status == 0 && regRead t.q 0 ==
      some ⟨.arp, [none, none, none, none, none, none, none, none, none]⟩) = true := by decide
/-- V-Q-2, V-Q-3, V-Q-7, V-Q-9 -/
theorem test_qMatch :
    gives (cmd 0x1063 { s1 with res0 := 7 }) (fun t => t.status == 0 && t.res0 == 0) = true ∧
    gives (cmd 0x1063 { s1 with h := [none, some ⟨.arp, [1, 2, 3, 4, 2, 6, 7, 8, 9]⟩, none, none] })
      (fun t => t.status == 0 && t.res0 == 1) = true ∧
    gives (cmd 0x2063 { s1 with res0 := 7 }) (fun t => t.status == 0 && t.res0 == 0) = true ∧
    gives (cmd 0x1163 s1) (fun t => t.status == 0x111) = true ∧
    gives (cmd 0x2063 s1Unwrap) (fun t => t.status == 0x104 && t.res0 == 0) = true := by decide
/-- V-Q-8, V-Q-10 -/
theorem test_qMatchfa :
    gives (cmd 0x64 { s1 with l3 := none, res0 := 7 })
      (fun t => t.status == 0 && t.res0 == 0) = true ∧
    gives (cmd 0x64 { s1 with
        q := [some ⟨.arp, [none, none, none, none, some 1, none, none, none, none]⟩,
          none, none, none] })
      (fun t => t.status == 0 && t.res0 == 1) = true := by decide

/-! ### The host window (V-S) and decode checks (4) and (5) -/

/-- V-E-12 to V-E-18 -/
theorem test_illegal_values : ∀ w ∈ [0x100810, 0x10430, 0x40030, 0x50030, 0x30, 0x40052, 0x60060],
    gives (cmd w s1) (fun t => t == { s1 with cmd := BitVec.ofNat 64 w, status := 0x110 }) =
      true := by decide
/-- V-S-4 (`clr.err`), V-S-5 -/
theorem test_status_write :
    gives (acc (.write .b64 0x008 0x100) { s1 with status := 0x111 })
      (fun t => t.status == 0x11) = true ∧
    gives (acc (.write .b64 0x008 0xFF) { s1 with status := 0x111 })
      (fun t => t.status == 0x111) = true := by decide
/-- V-S-6 -/
theorem test_res_write_ignored : gives (acc (.write .b64 0x040 5) { s1 with res0 := 9 })
    (fun t => t.res0 == 9) = true := by decide
/-- V-S-7 -/
theorem test_soft_reset : gives (acc (.write .b64 0x000 1) { s1 with arg0 := 7 })
    (fun t => t == { State.reset with mem := s1.mem }) = true := by decide
theorem test_hardware_reset : gives (acc .hardwareReset { s1 with arg0 := 7 })
    (fun t => t == State.reset) = true := by decide
theorem test_host_reads :
    gives (acc (.read .b64 0x050) s1) (fun t => t.rdata == 16) = true ∧
    gives (acc (.read .b8 0x1001) s1) (fun t => t.rdata == 0x34) = true ∧
    gives (acc (.read .b64 0x000) { s1 with rdata := 9 }) (fun t => t.rdata == 0) = true := by
  decide
theorem test_host_mem_write : gives (acc (.write .b8 0x17FE 0x1AB) s1)
    (fun t => listed t.mem 2045 3 == [none, some 0xAB, some 0xff]) = true := by decide
/-- R68, R69 -/
theorem test_host_refusals :
    refuses (acc (.read .b32 0x008) s1) .hostAccessWidth = true ∧
    refuses (acc (.write .b64 0x1000 0) s1) .hostAccessWidth = true ∧
    refuses (acc (.read .b64 0x00C) s1) .hostUnalignedOffset = true ∧
    refuses (acc (.read .b64 0x018) s1) .hostReservedOffset = true ∧
    refuses (acc (.write .b8 0x1800 0) s1) .hostUnmappedOffset = true := by decide

theorem test_reset_memory_wf : Memory.wf State.reset.cfg.memSize State.reset.mem := by decide

/-! ### Witnesses: for each statement with hypotheses, a state and operands that meet them, for each
clause, at the ends of the ranges -/

/-- The pending accesses of a state, the first one `a`. -/
def pend (a : HostAccess) : State := s1.setPending [a, .hardwareReset]

theorem s1_inv : s1.Inv := by constructor <;> decide +kernel
theorem s1Pend_inv : (pend (.write .b64 0x010 0x53)).Inv := by constructor <;> decide +kernel

theorem witness_BitsOfAndValOfUndoEachOther : (255 : Nat) < 2 ^ 8 ∧ (0 : Nat) < 2 ^ 0 := by decide
theorem witness_BytesAndBitsUndoEachOther :
    ([] : List Bool).length % 8 = 0 ∧ (bytesToBits [0x12, 0x34]).length % 8 = 0 := by decide
theorem witness_FieldsTileTheHeader : 10 + 1 < nfields .ipv4 ∧ 0 + 1 < nfields .ethernet := by
  decide
theorem witness_EncodeOfDecodeIsTheWord : decode 0xFF0F10 = .ok (.bfNew 15 255) := by rfl
theorem witness_MatchAndMaskSelectTheRow :
    (⟨"Q.MATCHFA", 0x64, some .q, none, none⟩ : OpcodeRow) ∈ opcodeTable := by decide
theorem witness_LegalWords : passesDecodeChecks Config.default 0xFF0710 := by
  refine ⟨by decide, ⟨"BF.NEW", 0x10, some .bf, none, some .any⟩, by decide, by decide,
    by decide, by decide, by decide, by decide, by decide, ?_⟩
  intro k hk
  cases hk
  decide
/-- A reserved bit, an unknown opcode, an unused field, an index and an IMM. -/
theorem witness_IllegalWordRaisesIllegalCommandOnly :
    (∀ w ∈ [(0x1000000 : Word), 0x1, 0x150, 0x100810, 0x40030],
      (pend (.write .b64 0x010 w)).pending = .write .b64 0x010 w :: [.hardwareReset] ∧
      ¬ passesDecodeChecks s1.cfg w) ∧
    (Instr.bfNew 8 16).wellFormed s1.cfg = false ∧
    (Instr.faGet 0 4).wellFormed s1.cfg = false := by
  refine ⟨?_, by decide, by decide⟩
  have h1 : ∀ r ∈ opcodeTable, r.opc ≠ 0x1 := by decide
  have h2 : ∀ r ∈ opcodeTable, r.opc = 0x50 → r.a = none := by decide
  have h3 : ∀ r ∈ opcodeTable, r.opc = 0x10 → r.a = some .bf := by decide
  have h4 : ∀ r ∈ opcodeTable, r.opc = 0x30 → r.imm = some .tag := by decide
  intro w hw
  refine ⟨rfl, ?_⟩
  rintro ⟨h0, r, hr, ho, ha, -, -, hi, -, hm⟩
  simp only [List.mem_cons, List.not_mem_nil, or_false] at hw
  rcases hw with rfl | rfl | rfl | rfl | rfl
  · exact absurd h0 (by decide)
  · exact h1 r hr ho.symm
  · exact absurd (ha (h2 r hr ho.symm)) (by decide)
  · exact absurd (hi .bf (h3 r hr ho.symm)) (by decide)
  · exact absurd (hm .tag (h4 r hr ho.symm)) (by decide)
theorem witness_StepRunsTheDecodedCommand :
    (pend (.write .b64 0x010 0x2163)).pending = .write .b64 0x010 0x2163 :: [.hardwareReset] ∧
    decode 0x2163 = .ok (.qMatch 1 2) := by exact ⟨rfl, rfl⟩
theorem witness_HostWrites : ∀ off ∈ [(0x020 : Nat), 0x028, 0x030, 0x038, 0x040, 0x058, 0x008],
    (pend (.write .b64 off 7)).pending = .write .b64 off 7 :: [.hardwareReset] := by decide
theorem witness_HostReadOfRegisterReturnsItsValue :
    ((0x058 : Nat), BitVec.ofNat 64 s1.faBuf.length) ∈
      [((0x000 : Nat), (0 : Word)), (0x058, BitVec.ofNat 64 s1.faBuf.length)] ∧
    (pend (.read .b64 0x058)).pending = .read .b64 0x058 :: [.hardwareReset] := by decide
theorem witness_HostAccessesMemoryByBytes : ∀ k ∈ [(0 : Nat), 2047], k < s1.cfg.memSize ∧
    (pend (.write .b8 (0x1000 + k) 7)).pending =
      .write .b8 (0x1000 + k) 7 :: [.hardwareReset] ∧
    (pend (.read .b8 (0x1000 + k))).pending = .read .b8 (0x1000 + k) :: [.hardwareReset] := by
  decide
/-- One access for each of the six cases. -/
theorem witness_HostAccessOutsideTheWindowMapIsRefused :
    ((0x008 : Nat) < 0x1000 ∧ AccessSize.b32 ≠ .b64) ∧
    ((0xFFF : Nat) < 0x1000 ∧ 0xFFF % 8 ≠ 0) ∧
    ((0x018 : Nat) ≤ 0x018 ∧ (0x01F : Nat) < 0x020) ∧
    ((0x060 : Nat) ≤ 0x060 ∧ (0xFF8 : Nat) < 0x1000) ∧
    ((0x1000 : Nat) ≤ 0x1000 ∧ AccessSize.b64 ≠ .b8) ∧
    0x1000 + s1.cfg.memSize ≤ 0x1800 := by decide
theorem witness_Resets :
    (pend (.write .b64 0x000 1)).pending = .write .b64 0x000 1 :: [.hardwareReset] ∧
    (1 : Word).getLsbD 0 = true ∧ (2 : Word).getLsbD 0 = false ∧
    (s1.setPending [.hardwareReset]).pending = .hardwareReset :: [] := by decide
theorem witness_HostReadRightAfterWriteOfArgOrByteReturnsIt :
    2047 < s1.cfg.memSize ∧
    (s1.setPending [.write .b8 (0x1000 + 2047) 7, .read .b8 (0x1000 + 2047)]).pending =
      .write .b8 (0x1000 + 2047) 7 :: .read .b8 (0x1000 + 2047) :: [] ∧
    (s1.setPending [.write .b64 0x038 7, .read .b64 0x038]).pending =
      .write .b64 0x038 7 :: .read .b64 0x038 :: [] := by decide

/-! #### Whole-machine rules -/

theorem witness_ErrorsWriteOnlyStatus : ∃ t, exec (.bfVal 7) s1 = .next t ∧
    t.status.toNat % 256 ≠ 0 := by exact ⟨_, rfl, by decide⟩
theorem witness_ErrorsWriteOnlyStatus_exception :
    ({ Config.default with legacyEmptyBuild := true } : Config).legacyEmptyBuild = true ∧
    ({ s1 with l2 := none } : State).l2 = none ∧ s1.l3 = some arpH := by decide
theorem witness_ErrBitIsSticky : ∃ t,
    step { pend (.write .b64 0x008 0x100) with status := 0x111 } = .next t ∧
    ({ pend (.write .b64 0x008 0x100) with status := 0x111 } : State).status.getLsbD 8 = true ∧
    t.status.getLsbD 8 = false := by exact ⟨_, rfl, by decide, by decide⟩
theorem witness_CodesComeOnlyFromTheirCommands : ∃ t, exec (.qMatch 0 2) s1Unwrap = .next t ∧
    t.status.toNat % 256 = 0x04 ∧ (Instr.qMatch 0 2).mnemonic ∈ ["Q.MATCH", "Q.MATCHFA"] := by
  exact ⟨_, rfl, by decide, by decide⟩
/-- One command for each kind of state. -/
theorem witness_CommandsWriteOnlyTheirState :
    gives (exec (.bfBits 0) s1) (fun t => t.res0 != s1.res0 && t.res1 != s1.res1) = true ∧
    gives (exec .fbClr s1) (fun t => t.fb != s1.fb) = true ∧
    gives (exec (.bfNew 7 1) s1) (fun t => t.bf != s1.bf) = true ∧
    gives (exec (.hdrInit 0 2) s1) (fun t => t.h != s1.h) = true ∧
    gives (exec (.qInit 1 2) s1) (fun t => t.q != s1.q) = true ∧
    gives (exec (.faSet 2) s1) (fun t => t.l3 != s1.l3) = true ∧
    gives (exec .faBuild s1) (fun t => t.faBuf != s1.faBuf) = true ∧
    gives (exec .fbTob { s1 with arg0 := 7 }) (fun t => t.mem != s1.mem) = true := by
  decide +kernel
theorem witness_EveryStepKeepsTheInvariant : (pend (.write .b64 0x010 0x53)).Inv ∧
    ∃ t, step (pend (.write .b64 0x010 0x53)) = .next t ∧ t.cfg = s1.cfg := by
  exact ⟨s1Pend_inv, _, rfl, rfl⟩
theorem witness_ResetStateHasTheInvariant :
    ({ Config.default with nbf := 16, nh := 2, nq := 1, memSize := 65536, fbCapBits := 64 } :
      Config).valid := by decide

/-! #### BitFields and FrameBuffer -/

theorem witness_BfNewBuildsLegalBitFields : (7 : RegIdx).val < s1.cfg.nbf ∧
    (1 ≤ (64 : Imm).val ∧ (64 : Imm).val ≤ 64 ∧
      (args 0xFFFFFFFFFFFFFFFF 0 0 s1).arg0.toNat < 2 ^ (64 : Imm).val) ∧
    (1 ≤ (1 : Imm).val ∧ (args 1 0 0 s1).arg0.toNat < 2 ^ (1 : Imm).val) ∧
    ((0 : Imm).val = 0 ∧ 64 < (65 : Imm).val ∧ 2 ^ (3 : Imm).val ≤ (args 8 0 0 s1).arg0.toNat) := by
  decide +kernel
/-- The LengthError clause holds in no state of an invariant run (R246): a state beside them. -/
theorem witness_BfBitsAndBfValGiveTheValue : (4 : RegIdx).val < s1.cfg.nbf ∧
    s1.bf[4]? = some none ∧ (s1.bf[3]? = some (some ⟨64, 2 ^ 64 - 1⟩) ∧ 2 ^ 64 - 1 < 2 ^ 64) ∧
    (s1Bad.bf[0]? = some (some ⟨3, 8⟩) ∧ 2 ^ 3 ≤ 8) := by decide +kernel
theorem witness_BfEqComparesValuesOnly : (1 : RegIdx).val < s1.cfg.nbf ∧
    s1.bf[0]? = some (some ⟨8, 5⟩) ∧ s1.bf[1]? = some (some ⟨16, 5⟩) ∧
    s1.bf[4]? = some none := by decide
theorem witness_BitFieldRoundTripAsAScript : 1 ≤ (64 : Imm).val ∧ (64 : Imm).val ≤ 64 ∧
    (0xFFFFFFFFFFFFFFFF : Word).toNat < 2 ^ (64 : Imm).val ∧
    (State.reset.setPending [.write .b64 0x020 0xFFFFFFFFFFFFFFFF, .write .b64 0x010 0x400010,
        .write .b64 0x010 0x12]).pending =
      scriptWrArg 0 0xFFFFFFFFFFFFFFFF ++ scriptCmd (.bfNew 0 64) ++ scriptCmd (.bfVal 0) ++ [] := by
  decide +kernel
theorem witness_BitFieldRoundTripAsAScript_inv :
    (s1.setPending (scriptWrArg 0 1 ++ scriptCmd (.bfNew 0 1) ++ scriptCmd (.bfVal 0))).Inv := by
  constructor <;> decide +kernel
theorem witness_FbAppbAppendsTheBytes :
    s1.cfg.memSize < (args 2047 2 0 s1).arg0.toNat + (args 2047 2 0 s1).arg1.toNat ∧
    ((args 2048 0 0 s1).arg0.toNat + (args 2048 0 0 s1).arg1.toNat ≤ s1.cfg.memSize ∧
      s1.fb.length + 8 * (args 2048 0 0 s1).arg1.toNat ≤ s1.cfg.fbCapBits) ∧
    ((args 0 2047 0 s1).arg0.toNat + (args 0 2047 0 s1).arg1.toNat ≤ s1.cfg.memSize ∧
      s1.cfg.fbCapBits < s1.fb.length + 8 * (args 0 2047 0 s1).arg1.toNat) := by decide +kernel
theorem witness_FbAppfAppendsThePaddedBits : (3 : RegIdx).val < s1.cfg.nbf ∧
    s1.bf[4]? = some none ∧ (s1Bad.bf[0]? = some (some ⟨3, 8⟩) ∧ 2 ^ 3 ≤ 8) ∧
    (s1.bf[0]? = some (some ⟨8, 5⟩) ∧ 5 < 2 ^ 8 ∧ s1.fb.length + 8 ≤ s1.cfg.fbCapBits) ∧
    64 < ({ s1 with fb := List.replicate 57 true } : State).fb.length + 8 := by decide +kernel
theorem witness_FbSlbReturnsTheBits :
    ¬ ((args 5 4 0 s1).arg0.toNat ≤ (args 5 4 0 s1).arg1.toNat ∧
      (args 5 4 0 s1).arg1.toNat ≤ s1.fb.length) ∧
    ((args 0 16 0 s1).arg0.toNat ≤ (args 0 16 0 s1).arg1.toNat ∧
      (args 0 16 0 s1).arg1.toNat ≤ s1.fb.length ∧
      (args 0 16 0 s1).arg1.toNat - (args 0 16 0 s1).arg0.toNat ≤ 64) ∧
    ((args 0 65 0 s1).arg1.toNat ≤ (List.replicate 72 true).length ∧
      64 < (args 0 65 0 s1).arg1.toNat - (args 0 65 0 s1).arg0.toNat) := by decide +kernel
theorem witness_FbSlyStoresTheBytesOfTheRange :
    (args 4 12 2047 s1).arg0.toNat ≤ (args 4 12 2047 s1).arg1.toNat ∧
    (args 4 12 2047 s1).arg1.toNat ≤ s1.fb.length ∧
    ((args 4 11 0 s1).arg1.toNat - (args 4 11 0 s1).arg0.toNat) % 8 ≠ 0 ∧
    (args 4 12 2047 s1).arg1.toNat - (args 4 12 2047 s1).arg0.toNat = 8 * 1 ∧
    (args 4 12 2047 s1).arg2.toNat + 1 ≤ s1.cfg.memSize ∧
    s1.cfg.memSize < (args 4 12 2048 s1).arg2.toNat + 1 ∧
    ¬ ((args 0 17 0 s1).arg0.toNat ≤ (args 0 17 0 s1).arg1.toNat ∧
      (args 0 17 0 s1).arg1.toNat ≤ s1.fb.length) := by decide +kernel
theorem witness_FbTobStoresTheWholeBuffer : s1.fb.length = 8 * 2 ∧
    (args 2046 0 0 s1).arg0.toNat + 2 ≤ s1.cfg.memSize ∧
    s1.cfg.memSize < (args 2047 0 0 s1).arg0.toNat + 2 ∧
    ({ s1 with fb := [true, false, true] } : State).fb.length % 8 ≠ 0 := by decide +kernel
theorem witness_AppendThenSliceIsTheField : s1.cfg.valid ∧ (3 : RegIdx).val < s1.cfg.nbf ∧
    s1.bf[3]? = some (some ⟨64, 2 ^ 64 - 1⟩) ∧ 2 ^ 64 - 1 < 2 ^ 64 ∧
    s1.fb.length + 64 ≤ s1.cfg.fbCapBits := by decide +kernel

/-! #### Headers, codecs, assembly and matcher -/

theorem witness_HdrRegisters : (3 : RegIdx).val < s1.cfg.nh ∧ s1.h[3]? = some none ∧
    s1.h[0]? = some (some ethH) ∧ s1.h[1]? = some (some arpH) ∧ s1.h[2]? = some (some ipH) ∧
    nfields arpH.tag ≤ (9 : Imm).val ∧ (8 : Imm).val < nfields arpH.tag ∧
    2 ^ fieldWidth s1.cfg.flagsWidth arpH.tag 2 ≤ (args 256 0 0 s1).arg0.toNat ∧
    (args 255 0 0 s1).arg0.toNat < 2 ^ fieldWidth s1.cfg.flagsWidth arpH.tag 2 ∧
    arpH.fields[(8 : Imm).val]? = some 0xC0A80165 := by decide +kernel
theorem witness_HdrUnwrapChecksTheVariant :
    ((2 : Imm).val, Tag.arp) ∈ [(1, Tag.ethernet), (2, Tag.arp), (3, Tag.ipv4)] ∧
    arpH.tag = .arp ∧ ipH.tag ≠ .arp := by decide
theorem witness_CreateStoresTheHeaderBytes : (1 : RegIdx).val < s1.cfg.nh ∧
    s1.h[1]? = some (some arpH) ∧ arpH.tag = .arp ∧ arpH.tag ≠ .ethernet ∧
    (args 2020 0 0 s1).arg0.toNat + headerSize .arp ≤ s1.cfg.memSize ∧
    s1.cfg.memSize < (args 2021 0 0 s1).arg0.toNat + headerSize .arp := by decide +kernel
theorem witness_ParseReadsTheHeader :
    (args 2040 8 0 s1).arg0.toNat + (args 2040 8 0 s1).arg1.toNat ≤ s1.cfg.memSize ∧
    s1.cfg.memSize < (args 2040 9 0 s1).arg0.toNat + (args 2040 9 0 s1).arg1.toNat := by
  decide +kernel
theorem witness_CreateThenParseIsTheHeader : s1.Inv ∧ (2 : RegIdx).val < s1.cfg.nh ∧
    (3 : RegIdx).val < s1.cfg.nh ∧ s1.h[2]? = some (some ipH) ∧
    (2028 : Word).toNat + headerSize ipH.tag ≤ s1.cfg.memSize := by
  exact ⟨s1_inv, by decide, by decide, by decide, by decide⟩
theorem witness_EncodeOfDecodeIsTheBytes : headerSize .ethernet ≤ ethBytes.length ∧
    headerSize .ipv4 ≤ (ipBytes ++ [1]).length := by decide
theorem witness_FaSetAndFaGet : (3 : RegIdx).val < s1.cfg.nh ∧ s1.l2 = some ethH ∧
    s1.l3 = some arpH ∧ State.reset.l2 = none ∧ State.reset.l3 = none ∧ ethH.tag = .ethernet ∧
    arpH.tag ≠ .ethernet := by decide
theorem witness_FaParseReadsTheFrame :
    (args 1988 60 0 s1).arg0.toNat + (args 1988 60 0 s1).arg1.toNat ≤ s1.cfg.memSize ∧
    s1.cfg.memSize < (args 1989 60 0 s1).arg0.toNat + (args 1989 60 0 s1).arg1.toNat := by
  decide +kernel
theorem witness_FaBuild : State.reset.l3 = none ∧
    (({ s1 with l2 := none } : State).l2 = none ∧ s1.cfg.legacyEmptyBuild = false ∧
      ({ Config.default with legacyEmptyBuild := true } : Config).legacyEmptyBuild = true) ∧
    s1.l2 = some ethH ∧ s1.l3 = some arpH ∧ ethH.tag = .ethernet ∧ arpH.tag = .arp ∧
    ipH.tag = .ipv4 ∧ gives (exec .faBuild s1) (fun t => t.faBuf.length == 60) = true := by
  decide +kernel
theorem witness_FaBuildIsDeterminedByTheSlots :
    s1.l2 = (args 9 9 9 s1).l2 ∧ s1.l3 = (args 9 9 9 s1).l3 ∧ s1.cfg = (args 9 9 9 s1).cfg ∧
    gives (exec .faBuild s1) (fun t => t.status == 0) = true ∧
    gives (exec .faBuild (args 9 9 9 s1)) (fun t => t.status == 0) = true := by decide +kernel
theorem witness_FaReadStoresTheBuffer :
    (args 2034 0 0 { s1 with faBuf := ethBytes }).arg0.toNat + ethBytes.length ≤ s1.cfg.memSize ∧
    s1.cfg.memSize < (args 2035 0 0 { s1 with faBuf := ethBytes }).arg0.toNat +
      ethBytes.length := by decide +kernel
theorem witness_QRegisters : (3 : RegIdx).val < s1.cfg.nq ∧ s1.q[3]? = some none ∧
    s1.q[2]? = some (some ⟨.ethernet, [none, none, none]⟩) ∧
    ((3 : Imm), Tag.ipv4, 12) ∈ [((1 : Imm), Tag.ethernet, 3), (2, Tag.arp, 9), (3, Tag.ipv4, 12)] ∧
    nfields .ethernet ≤ (3 : Imm).val ∧ (2 : Imm).val < nfields .ethernet ∧
    2 ^ fieldWidth s1.cfg.flagsWidth .ethernet 2 ≤ (args 0x10000 0 0 s1).arg0.toNat ∧
    (args 0xFFFF 0 0 s1).arg0.toNat < 2 ^ fieldWidth s1.cfg.flagsWidth .ethernet 2 := by
  decide +kernel
/-- A predicate of the header's protocol that matches and one that does not, and one of another
protocol under both values of MATCH_TAG_MISMATCH. -/
theorem witness_QMatch :
    s1.q[2]? = some (some ⟨.ethernet, [none, none, none]⟩) ∧ s1.h[0]? = some (some ethH) ∧
    (∀ id, id < nfields .ethernet → [none, none, none].getD id (none : Option Nat) = none) ∧
    s1.q[0]? = some (some ⟨.arp, [none, none, none, none, some 2, none, none, none, none]⟩) ∧
    4 < nfields .arp ∧ 2 ≠ arpH.fields.getD 4 0 ∧ s1.q[1]? = some none ∧ s1.h[3]? = some none ∧
    Tag.arp ≠ ipH.tag ∧ s1.cfg.tagMismatch = .noMatch ∧ s1Unwrap.cfg.tagMismatch = .unwrap := by
  decide +kernel
theorem witness_QMatchfaEvaluatesAtTheNaturalLayer :
    (Tag.ethernet = .ethernet ∧ s1.l2 = s1.l2) ∧ (Tag.arp ≠ .ethernet ∧ s1.l3 = some arpH) ∧
    State.reset.l3 = none ∧ Tag.arp ≠ ipH.tag ∧
    ({ s1Unwrap with l3 := some ipH } : State).l3 = some ipH := by decide +kernel
theorem witness_WildcardLawsHold : (2 : RegIdx).val < s1.cfg.nq ∧ s1.h[0]? = some (some ethH) ∧
    s1.q[2]? = some (some ⟨ethH.tag, List.replicate (nfields ethH.tag) none⟩) ∧
    2 < nfields ethH.tag ∧
    (regWrite s1.q 2
        ⟨.ethernet, (List.replicate 3 none).set 2 (some (1 : Nat))⟩)[2]? =
      some (some ⟨ethH.tag, (List.replicate (nfields ethH.tag) none).set 2 (some 1)⟩) := by decide +kernel

end Sys2Proof.Tests
end

section
/-! PROOFS. bitsOf and valOf, bytesToBits and bitsToBytes (00_scope.md R8, R9). -/

namespace Sys2Proof.Machine

theorem valOf_lt (S : List Bool) : valOf S < 2 ^ S.length := by
  induction S with
  | nil => simp [valOf]
  | cons b bs ih => cases b <;> simp [valOf, pow_succ] <;> omega

/-- The value of the w padded bits: v cut to w bits. -/
@[simp] theorem valOf_bitsOf (v w : Nat) : valOf (bitsOf v w) = v % 2 ^ w := by
  induction w with
  | zero => simp [bitsOf, valOf, Nat.mod_one]
  | succ w ih => rw [bitsOf, valOf, length_bitsOf, ih, Nat.toNat_testBit, Nat.mod_pow_succ,
      Nat.mul_comm, Nat.add_comm]

theorem valOf_bitsOf_of_lt {v w : Nat} (h : v < 2 ^ w) : valOf (bitsOf v w) = v := by
  rw [valOf_bitsOf, Nat.mod_eq_of_lt h]

/-- bitsOf reads only the low w bits of the value. -/
theorem bitsOf_mod_two_pow (v w : Nat) : bitsOf (v % 2 ^ w) w = bitsOf v w := by
  refine List.ext_getElem? fun i => ?_
  rcases lt_or_ge i w with h | h
  · rw [getElem?_bitsOf _ h, getElem?_bitsOf _ h, Nat.testBit_mod_two_pow]
    simp [show w - 1 - i < w by omega]
  · simp [h]

/-- The bit that the first of S carries in valOf(S). -/
theorem testBit_valOf_cons (b : Bool) (bs : List Bool) :
    (valOf (b :: bs)).testBit bs.length = b := by
  rw [valOf, Nat.mul_comm, Nat.testBit_two_pow_mul_add _ (valOf_lt bs)]
  cases b <;> simp

@[simp] theorem bitsOf_valOf (S : List Bool) : bitsOf (valOf S) S.length = S := by
  induction S with
  | nil => rfl
  | cons b bs ih =>
    have low : valOf (b :: bs) % 2 ^ bs.length = valOf bs := by
      rw [valOf, Nat.mul_add_mod_self_right, Nat.mod_eq_of_lt (valOf_lt bs)]
    rw [List.length_cons, bitsOf, testBit_valOf_cons, ← bitsOf_mod_two_pow, low, ih]

/-- A whole byte in front of a bit sequence is the first byte of the bytes. -/
theorem bitsToBytes_append {c : List Bool} (hc : c.length = 8) (S : List Bool) :
    bitsToBytes (c ++ S) = BitVec.ofNat 8 (valOf c) :: bitsToBytes S := by
  have hlen : (c ++ S).length / 8 = S.length / 8 + 1 := by rw [List.length_append, hc]; omega
  have hfirst : sliceBits (c ++ S) 0 8 = c := by simp [sliceBits, ← hc]
  have hrest (i : Nat) :
      sliceBits (c ++ S) (8 * (i + 1)) (8 * (i + 1) + 8) = sliceBits S (8 * i) (8 * i + 8) := by
    simp [sliceBits, List.drop_append, hc, show 8 * (i + 1) - 8 = 8 * i by omega,
      show c.drop (8 * (i + 1)) = [] from List.drop_eq_nil_of_le (by omega)]
  rw [bitsToBytes, hlen, List.range_succ_eq_map]
  simp [bitsToBytes, hfirst, hrest]

@[simp] theorem bitsToBytes_bytesToBits (B : List Byte) : bitsToBytes (bytesToBits B) = B := by
  induction B with
  | nil => rfl
  | cons b B ih =>
    rw [bytesToBits_cons, bitsToBytes_append (length_bitsOf _ _), ih, valOf_bitsOf_of_lt b.isLt,
      BitVec.ofNat_toNat, BitVec.setWidth_eq]

/-- By induction on the number of bytes, taking 8 bits off the front. -/
theorem bytesToBits_bitsToBytes_of_length {n : Nat} :
    ∀ {S : List Bool}, S.length = 8 * n → bytesToBits (bitsToBytes S) = S := by
  induction n with
  | zero => intro S h; rw [List.eq_nil_of_length_eq_zero h]; rfl
  | succ n ih =>
    intro S h
    have hc : (S.take 8).length = 8 := by rw [List.length_take]; omega
    have hbyte : bitsOf (BitVec.ofNat 8 (valOf (S.take 8))).toNat 8 = S.take 8 := by
      have := bitsOf_valOf (S.take 8)
      rwa [hc, ← bitsOf_mod_two_pow, ← BitVec.toNat_ofNat] at this
    calc bytesToBits (bitsToBytes S)
        = bytesToBits (bitsToBytes (S.take 8 ++ S.drop 8)) := by rw [List.take_append_drop]
      _ = S.take 8 ++ bytesToBits (bitsToBytes (S.drop 8)) := by
        rw [bitsToBytes_append hc, bytesToBits_cons, hbyte]
      _ = S.take 8 ++ S.drop 8 := by rw [ih (by rw [List.length_drop]; omega)]
      _ = S := List.take_append_drop 8 S

theorem bytesToBits_bitsToBytes {S : List Bool} (h : S.length % 8 = 0) :
    bytesToBits (bitsToBytes S) = S :=
  bytesToBits_bitsToBytes_of_length (n := S.length / 8) (by omega)

/-- Settles O1: each direction by induction, on the width and on the bit sequence. -/
theorem bitsOfAndValOfUndoEachOther : Obligations.BitsOfAndValOfUndoEachOther :=
  ⟨fun _ _ h => ⟨length_bitsOf _ _, valOf_bitsOf_of_lt h⟩, fun S => ⟨valOf_lt S, bitsOf_valOf S⟩⟩

/-- Settles O2: byte by byte, since a whole byte in front of a bit sequence splits off. -/
theorem bytesAndBitsUndoEachOther : Obligations.BytesAndBitsUndoEachOther :=
  ⟨bitsToBytes_bytesToBits, fun _ => bytesToBits_bitsToBytes⟩

end Sys2Proof.Machine
end

section
/-! PROOFS. Postconditions of commands: what it takes for a result to be a next state with a
property, once per operand form. A command's postcondition is then read off its text: one condition
for each check that fails and one for the end of the command. -/

namespace Sys2Proof.Machine

/-- The result is a next state, and it has the property. -/
def EndsIn (r : StepResult) (P : State → Prop) : Prop := ∃ t, r = .next t ∧ P t

theorem EndsIn.of_next {r : StepResult} {P : State → Prop} (h : EndsIn r P) {t : State}
    (ht : r = .next t) : P t := by
  obtain ⟨u, hu, hP⟩ := h
  rwa [next_eq_next.1 (ht.symm.trans hu)]

section
variable {s : State} {P : State → Prop}

@[simp] theorem endsIn_next {t : State} : EndsIn (.next t) P ↔ P t := by simp [EndsIn]

@[simp] theorem endsIn_done : EndsIn s.done P ↔ P (s.withStatus .ok) := endsIn_next

@[simp] theorem endsIn_raise {c : StatusCode} : EndsIn (s.raise c) P ↔ P (s.withStatus c) :=
  endsIn_next

@[simp] theorem endsIn_ite {C : Prop} [Decidable C] {r r' : StepResult} :
    EndsIn (if C then r else r') P ↔ (C → EndsIn r P) ∧ (¬ C → EndsIn r' P) := by
  split <;> simp [*]

/-- The shape of the checks that end with one code. -/
theorem endsIn_check {C : Prop} [Decidable C] {k : StepResult} {c : StatusCode} :
    EndsIn (if C then k else s.raise c) P ↔ (C → EndsIn k P) ∧ (¬ C → P (s.withStatus c)) := by
  simp

@[simp] theorem endsIn_command {i : Instr} {k : StepResult} :
    EndsIn (s.command i k) P ↔
      (i.wellFormed s.cfg = true → EndsIn k P) ∧
      (i.wellFormed s.cfg = false → P (s.withStatus .illegalCommand)) := by
  simp [State.command]

@[simp] theorem endsIn_withBfRaw {i : RegIdx} {k : BitField → StepResult} :
    EndsIn (s.withBfRaw i k) P ↔
      (∀ b, s.bfReg i = some b → EndsIn (k b) P) ∧
      (s.bfReg i = none → P (s.withStatus .notInitialised)) := by
  unfold State.withBfRaw
  split <;> simp [*]

@[simp] theorem endsIn_withBf {i : RegIdx} {k : BitField → StepResult} :
    EndsIn (s.withBf i k) P ↔
      (∀ b, s.bfReg i = some b →
        (2 ^ b.width ≤ b.value → P (s.withStatus .lengthError)) ∧
        (b.value < 2 ^ b.width → EndsIn (k b) P)) ∧
      (s.bfReg i = none → P (s.withStatus .notInitialised)) := by
  simp [State.withBf]

@[simp] theorem endsIn_withH {i : RegIdx} {k : Header → StepResult} :
    EndsIn (s.withH i k) P ↔
      (∀ x, s.hReg i = some x → EndsIn (k x) P) ∧
      (s.hReg i = none → P (s.withStatus .notInitialised)) := by
  unfold State.withH
  split <;> simp [*]

@[simp] theorem endsIn_withQ {i : RegIdx} {k : Predicate → StepResult} :
    EndsIn (s.withQ i k) P ↔
      (∀ p, s.qReg i = some p → EndsIn (k p) P) ∧
      (s.qReg i = none → P (s.withStatus .notInitialised)) := by
  unfold State.withQ
  split <;> simp [*]

@[simp] theorem endsIn_withTag {imm : Imm} {k : Tag → StepResult} :
    EndsIn (s.withTag imm k) P ↔
      (∀ g, tagOfCode imm.val = some g → EndsIn (k g) P) ∧
      (tagOfCode imm.val = none → P (s.withStatus .illegalCommand)) := by
  unfold State.withTag
  split <;> simp [*]

@[simp] theorem endsIn_withSlot {slot : Option Header} {k : Header → StepResult} :
    EndsIn (s.withSlot slot k) P ↔
      (∀ x, slot = some x → EndsIn (k x) P) ∧
      (slot = none → P (s.withStatus .layerAbsent)) := by
  cases slot <;> simp [State.withSlot]

@[simp] theorem endsIn_withField {g : Tag} {id : Nat} {k : StepResult} :
    EndsIn (s.withField g id k) P ↔
      (id < nfields g → EndsIn k P) ∧ (¬ id < nfields g → P (s.withStatus .badField)) :=
  endsIn_check

@[simp] theorem endsIn_withFits {g : Tag} {id v : Nat} {k : StepResult} :
    EndsIn (s.withFits g id v k) P ↔
      (v < 2 ^ fieldWidth s.cfg.flagsWidth g id → EndsIn k P) ∧
      (¬ v < 2 ^ fieldWidth s.cfg.flagsWidth g id → P (s.withStatus .lengthError)) :=
  endsIn_check

@[simp] theorem endsIn_withRange {off n : Nat} {k : StepResult} :
    EndsIn (s.withRange off n k) P ↔
      (off + n ≤ s.cfg.memSize → EndsIn k P) ∧
      (¬ off + n ≤ s.cfg.memSize → P (s.withStatus .outOfRange)) :=
  endsIn_check

@[simp] theorem endsIn_withRoom {n : Nat} {k : StepResult} :
    EndsIn (s.withRoom n k) P ↔
      (s.fb.length + n ≤ s.cfg.fbCapBits → EndsIn k P) ∧
      (¬ s.fb.length + n ≤ s.cfg.fbCapBits → P (s.withStatus .overflow)) :=
  endsIn_check

@[simp] theorem endsIn_withFbRange {a b : Nat} {k : StepResult} :
    EndsIn (s.withFbRange a b k) P ↔
      (a ≤ b ∧ b ≤ s.fb.length → EndsIn k P) ∧
      (¬ (a ≤ b ∧ b ≤ s.fb.length) → P (s.withStatus .outOfRange)) :=
  endsIn_check

@[simp] theorem endsIn_withWholeBytes {n : Nat} {k : StepResult} :
    EndsIn (s.withWholeBytes n k) P ↔
      (n % 8 = 0 → EndsIn k P) ∧ (¬ n % 8 = 0 → P (s.withStatus .alignmentError)) :=
  endsIn_check

@[simp] theorem endsIn_withVariant {x : Header} {g : Tag} {k : StepResult} :
    EndsIn (s.withVariant x g k) P ↔
      (x.tag = g → EndsIn k P) ∧ (¬ x.tag = g → P (s.withStatus .unwrapHeaderError)) :=
  endsIn_check

@[simp] theorem endsIn_matchHeader {p : Predicate} {x : Header} :
    EndsIn (s.matchHeader p x) P ↔
      (p.tag = x.tag → P ((s.setRes0 (predicateMatches p x).toNat).withStatus .ok)) ∧
      (p.tag ≠ x.tag → s.cfg.tagMismatch = .noMatch → P ((s.setRes0 0).withStatus .ok)) ∧
      (p.tag ≠ x.tag → s.cfg.tagMismatch = .unwrap → P (s.withStatus .unwrapHeaderError)) := by
  cases h : s.cfg.tagMismatch <;> simp [State.matchHeader, h]

@[simp] theorem endsIn_createHeader {g : Tag} {i : RegIdx} :
    EndsIn (s.createHeader g i) P ↔
      (∀ x, s.hReg i = some x →
        (x.tag = g →
          (s.arg0.toNat + headerSize g ≤ s.cfg.memSize →
            P (((s.memWrite s.arg0.toNat (encodeHeader s.cfg.flagsWidth x)).setRes0
              (headerSize g)).withStatus .ok)) ∧
          (¬ s.arg0.toNat + headerSize g ≤ s.cfg.memSize → P (s.withStatus .outOfRange))) ∧
        (¬ x.tag = g → P (s.withStatus .unwrapHeaderError))) ∧
      (s.hReg i = none → P (s.withStatus .notInitialised)) := by
  simp only [State.createHeader, endsIn_withH, endsIn_withVariant, endsIn_withRange, endsIn_done]

@[simp] theorem endsIn_parseHeader {g : Tag} {i : RegIdx} :
    EndsIn (s.parseHeader g i) P ↔
      (s.arg0.toNat + s.arg1.toNat ≤ s.cfg.memSize →
        P ((s.drawn.setH i (decodeHeader s.cfg.flagsWidth g
          (s.memBytes s.arg0.toNat s.arg1.toNat))).withStatus .ok)) ∧
      (¬ s.arg0.toNat + s.arg1.toNat ≤ s.cfg.memSize → P (s.withStatus .outOfRange)) := by
  simp only [State.parseHeader, endsIn_withRange, endsIn_done]

end

end Sys2Proof.Machine
end

section
/-! PROOFS. No step changes the parameters (00_scope.md R6, 70_reset_and_hazards.md R271). -/

namespace Sys2Proof.Machine

/-- No command writes the parameters (R45): neither where a check fails nor at its end. Three
commands choose between two ends by a slot of the FrameAssembly or by a layer. -/
theorem exec_endsIn_cfg_eq (i : Instr) (s : State) : EndsIn (exec i s) fun t => t.cfg = s.cfg := by
  cases i
  case faSet hs => simp [exec, execFaSet, apply_ite State.cfg]
  case faBuild => cases h : s.l2 <;> simp [exec, execFaBuild, h]
  case qMatchfa qs =>
    simp only [exec, execQMatchfa, endsIn_command, endsIn_withQ]
    refine ⟨fun _ => ⟨fun p _ => ?_, fun _ => rfl⟩, fun _ => rfl⟩
    cases s.slot (layerOf p.tag) <;> simp
  all_goals
    simp [exec, execNop, execBfNew, execBfBits, execBfVal, execBfEq, execFbClr, execFbAppb,
      execFbAppf, execFbSlb, execFbSly, execFbTob, execHdrInit, execHdrSet, execHdrGet, execHdrTag,
      execHdrCopy, execHdrUnwrap, execEthCreate, execEthParse, execArpCreate, execArpParse,
      execIp4Create, execIp4Parse, execFaNew, execFaGet, execFaParse, execFaRead, execQInit,
      execQSet, execQAny, execQMatch]

section
variable {s t : State}

theorem exec_cfg {i : Instr} (h : exec i s = .next t) : t.cfg = s.cfg :=
  (exec_endsIn_cfg_eq i s).of_next h

theorem State.runCommand_cfg {w : Word} (h : s.runCommand w = .next t) : t.cfg = s.cfg := by
  cases hd : decode w with
  | error e => rw [State.runCommand_error hd] at h; rw [State.raise_next h, State.withStatus_cfg]
  | ok i => rw [State.runCommand_ok hd] at h; exact exec_cfg h

theorem State.writeReg_cfg {r : HostReg} {v : Word} (h : s.writeReg r v = .next t) :
    t.cfg = s.cfg := by
  rcases State.writeReg_next h with ⟨-, rfl⟩ | ⟨-, rfl⟩ | ⟨-, h⟩ | ⟨-, rfl⟩ | ⟨-, rfl⟩ | ⟨-, rfl⟩ |
    ⟨-, rfl⟩ | ⟨-, rfl⟩
  case inr.inr.inl => exact (State.runCommand_cfg h).trans (State.setCmd_cfg s v)
  case inl => split <;> rfl
  all_goals rfl

theorem State.hostAccess_cfg {a : HostAccess} (h : s.hostAccess a = .next t) : t.cfg = s.cfg := by
  cases a with
  | read size off => rcases State.hostRead_next h with ⟨_, -, -, rfl⟩ | ⟨_, -, -, rfl⟩ <;> rfl
  | write size off v =>
    rcases State.hostWrite_next h with ⟨r, -, -, h⟩ | ⟨_, -, -, rfl⟩
    · exact State.writeReg_cfg h
    · rfl
  | hardwareReset => rw [← next_eq_next.1 h, State.hardReset_cfg]

theorem step_cfg (h : step s = .next t) : t.cfg = s.cfg := by
  rcases step_next h with ⟨-, rfl⟩ | ⟨a, rest, -, h⟩
  · rfl
  · exact (State.hostAccess_cfg h).trans (State.setPending_cfg s rest)

end

/-- Settles O26: by the cases of a step, the commands by their postcondition. -/
theorem noStepChangesTheParameters : Obligations.NoStepChangesTheParameters :=
  fun _ _ => step_cfg

end Sys2Proof.Machine
end

section
/-! PROOFS. Every step keeps the invariant of the whole state (10_state.md R24, R29 to R42): one rule
per value that a command stores, one per update of the state, one per operand form, and each
command's proof follows its text. -/

namespace Sys2Proof.Machine

/-! ### STATUS -/

theorem StatusCode.num_lt (c : StatusCode) : c.num < 256 := by cases c <;> decide

theorem toNat_statusAfter (st : Word) (c : StatusCode) :
    (statusAfter st c).toNat = c.num + 256 * (statusErr st || decide (c ≠ .ok)).toNat := by
  have hc := c.num_lt
  have he := (statusErr st || decide (c ≠ .ok)).toNat_le
  rw [statusAfter, statusWord, BitVec.toNat_ofNat, Nat.mod_eq_of_lt (by omega)]

theorem toNat_statusAfter_lt (st : Word) (c : StatusCode) : (statusAfter st c).toNat < 512 := by
  have hc := c.num_lt
  have he := (statusErr st || decide (c ≠ .ok)).toNat_le
  rw [toNat_statusAfter]
  omega

@[simp] theorem statusCode_statusAfter (st : Word) (c : StatusCode) :
    statusCode (statusAfter st c) = c.num := by
  rw [statusCode, toNat_statusAfter, Nat.add_mul_mod_self_left, Nat.mod_eq_of_lt c.num_lt]

theorem toNat_statusHostWrite_le (st v : Word) : (statusHostWrite st v).toNat ≤ st.toNat := by
  unfold statusHostWrite
  split
  · exact Nat.and_le_left
  · exact le_rfl

theorem statusCode_eq_toNat_setWidth (st : Word) : statusCode st = (st.setWidth 8).toNat := by
  simp [statusCode]

/-- The host clears ERR, which is no bit of the code. -/
@[simp] theorem statusCode_statusHostWrite (st v : Word) :
    statusCode (statusHostWrite st v) = statusCode st := by
  unfold statusHostWrite
  split
  · have hmask : (~~~0x100#64).setWidth 8 = BitVec.allOnes 8 := by decide
    rw [statusCode_eq_toNat_setWidth, BitVec.setWidth_and, hmask, BitVec.and_allOnes,
      statusCode_eq_toNat_setWidth]
  · rfl

/-! ### Headers and predicates -/

theorem layerOf_eq_two {g : Tag} : layerOf g = 2 ↔ g = .ethernet := by cases g <;> decide

theorem ne_ethernet_of_etherTypeLookup {e : Nat} {g : Tag} (h : etherTypeLookup e = some g) :
    g ≠ .ethernet := by
  unfold etherTypeLookup at h
  split at h
  · simp [← Option.some.inj h]
  · split at h
    · simp [← Option.some.inj h]
    · cases h

/-- The fields of a header fill its size (R33 to R35), whatever values they hold. -/
@[simp] theorem length_encodeBits (fw : FlagsWidth) (x : Header) :
    (encodeBits fw x).length = 8 * headerSize x.tag := by
  obtain ⟨g, f⟩ := x
  simp only [encodeBits, List.length_flatMap, length_bitsOf]
  cases fw <;> cases g <;> rfl

@[simp] theorem length_encodeHeader (fw : FlagsWidth) (x : Header) :
    (encodeHeader fw x).length = headerSize x.tag := by
  simp [encodeHeader]

/-- R188: with PKC's headers a frame is never longer than the built length. -/
theorem length_frameBytes_le (fw : FlagsWidth) (e x : Header) :
    (frameBytes fw e x).length ≤ ethMinFrame := by
  have hsize (g : Tag) : headerSize g ≤ 28 := by cases g <;> decide
  have he := hsize e.tag
  have hx := hsize x.tag
  rw [frameBytes, List.length_append, length_encodeHeader, length_encodeHeader, ethMinFrame]
  omega

theorem length_padFrame {B : List Byte} (h : B.length ≤ ethMinFrame) :
    (padFrame B).length = ethMinFrame := by
  rw [padFrame, List.length_append, List.length_replicate]
  omega

section
variable {fw : FlagsWidth}

theorem Header.inv_zeros (fw : FlagsWidth) (g : Tag) :
    Header.inv fw ⟨g, List.replicate (nfields g) 0⟩ :=
  ⟨List.length_replicate, fun id hid => by simp [List.getD, hid]⟩

theorem Predicate.inv_wildcards (fw : FlagsWidth) (g : Tag) :
    Predicate.inv fw ⟨g, List.replicate (nfields g) none⟩ :=
  ⟨List.length_replicate, fun id hid => by simp [List.getD, hid]⟩

/-- A property of every entry of a list that the new value has too is kept by a write of one. -/
theorem forall_getD_set {α : Type} {P : Nat → α → Prop} {l : List α} {i n : Nat} {v d : α}
    (hl : ∀ j, j < n → P j (l.getD j d)) (hv : P i v) : ∀ j, j < n → P j ((l.set i v).getD j d) := by
  intro j hj
  by_cases hset : i = j ∧ i < l.length
  · obtain ⟨rfl, hi⟩ := hset
    simpa [List.getD, hi] using hv
  · have hsame : (l.set i v)[j]? = l[j]? := by
      rw [List.getElem?_set]
      grind
    rw [List.getD, hsame]
    exact hl j hj

theorem Header.inv_set {x : Header} {i v : Nat} (hx : x.inv fw)
    (hv : v < 2 ^ fieldWidth fw x.tag i) :
    Header.inv fw { x with fields := x.fields.set i v } :=
  ⟨List.length_set.trans hx.1,
    forall_getD_set (P := fun j w => w < 2 ^ fieldWidth fw x.tag j) hx.2 hv⟩

theorem Predicate.inv_set {p : Predicate} {i : Nat} {e : Option Nat} (hp : p.inv fw)
    (he : e.getD 0 < 2 ^ fieldWidth fw p.tag i) :
    Predicate.inv fw { p with fields := p.fields.set i e } :=
  ⟨List.length_set.trans hp.1,
    forall_getD_set (P := fun j (w : Option Nat) => w.getD 0 < 2 ^ fieldWidth fw p.tag j) hp.2 he⟩

/-- DECODE reads no more bits for a field than its width (R161). -/
theorem Header.inv_decodeHeader (fw : FlagsWidth) (g : Tag) (B : List Byte) :
    (decodeHeader fw g B).inv fw := by
  refine ⟨by simp [decodeHeader], fun id hid => ?_⟩
  have hid : id < nfields g := hid
  simp only [decodeHeader, List.getD, List.getElem?_map, List.getElem?_range hid, Option.map_some,
    Option.getD_some]
  refine (valOf_lt _).trans_le (Nat.pow_le_pow_right two_pos ?_)
  rw [length_sliceBits, Nat.add_sub_cancel_left]
  exact min_le_left _ _

end

/-! ### Register files -/

theorem forall_mem_regWrite {α : Type} {P : α → Prop} {file : List (Option α)} {i : RegIdx} {x : α}
    (hfile : ∀ y ∈ file, ∀ z ∈ y, P z) (hx : P x) : ∀ y ∈ regWrite file i x, ∀ z ∈ y, P z := by
  intro y hy z hz
  rcases mem_regWrite hy with hy | rfl
  · exact hfile y hy z hz
  · rwa [← Option.mem_some.1 hz]

theorem of_regRead {α : Type} {P : α → Prop} {file : List (Option α)} {i : RegIdx} {x : α}
    (hfile : ∀ y ∈ file, ∀ z ∈ y, P z) (h : regRead file i = some x) : P x :=
  hfile _ (List.mem_of_getElem? (regRead_eq_some.1 h)) x rfl

/-! ### The values a state with the invariant holds -/

namespace State.Inv

section
variable {s : State}

theorem of_hReg (h : s.Inv) {i : RegIdx} {x : Header} (hx : s.hReg i = some x) :
    x.inv s.cfg.flagsWidth := of_regRead h.hInv hx

theorem of_qReg (h : s.Inv) {i : RegIdx} {p : Predicate} (hp : s.qReg i = some p) :
    p.inv s.cfg.flagsWidth := of_regRead h.qInv hp

theorem of_slot (h : s.Inv) {n : Nat} {x : Header} (hx : s.slot n = some x) :
    x.inv s.cfg.flagsWidth := by
  unfold State.slot at hx
  split at hx
  · exact (h.l2Inv x hx).2
  · exact (h.l3Inv x hx).2

/-! ### Updates of the state -/

theorem withStatus (h : s.Inv) {c : StatusCode} (hc : c.num ∈ reachableCodes) :
    (s.withStatus c).Inv :=
  { h with
    statusReserved := toNat_statusAfter_lt s.status c
    statusCode := by simpa using hc }

theorem setStatus_hostWrite (h : s.Inv) (v : Word) :
    (s.setStatus (statusHostWrite s.status v)).Inv :=
  { h with
    statusReserved := (toNat_statusHostWrite_le s.status v).trans_lt h.statusReserved
    statusCode := by simpa using h.statusCode }

theorem drawn (h : s.Inv) : s.drawn.Inv := { h with }

theorem setRes0 (h : s.Inv) (v : Nat) : (s.setRes0 v).Inv := { h with }

theorem setRes1 (h : s.Inv) (v : Nat) : (s.setRes1 v).Inv := { h with }

theorem setCmd (h : s.Inv) (w : Word) : (s.setCmd w).Inv := { h with }

theorem setRdata (h : s.Inv) (v : Word) : (s.setRdata v).Inv := { h with }

theorem setPending (h : s.Inv) (l : List HostAccess) : (s.setPending l).Inv := { h with }

theorem setBf (h : s.Inv) {i : RegIdx} {b : BitField} (hb : b.inv) : (s.setBf i b).Inv :=
  { h with
    bfSize := (length_regWrite s.bf i b).trans h.bfSize
    bfInv := forall_mem_regWrite h.bfInv hb }

theorem setH (h : s.Inv) {i : RegIdx} {x : Header} (hx : x.inv s.cfg.flagsWidth) :
    (s.setH i x).Inv :=
  { h with
    hSize := (length_regWrite s.h i x).trans h.hSize
    hInv := forall_mem_regWrite h.hInv hx }

theorem setQ (h : s.Inv) {i : RegIdx} {p : Predicate} (hp : p.inv s.cfg.flagsWidth) :
    (s.setQ i p).Inv :=
  { h with
    qSize := (length_regWrite s.q i p).trans h.qSize
    qInv := forall_mem_regWrite h.qInv hp }

theorem memWrite (h : s.Inv) {a : Nat} {bs : List Byte} (ha : a + bs.length ≤ s.cfg.memSize) :
    (s.memWrite a bs).Inv :=
  { h with memWf := Memory.wf_writeBytes bs ha h.memWf }

theorem fbAppend (h : s.Inv) {S : List Bool} (hS : s.fb.length + S.length ≤ s.cfg.fbCapBits) :
    (s.fbAppend S).Inv :=
  { h with fbCap := List.length_append.trans_le hS }

theorem fbClear (h : s.Inv) : ({ s with fb := [] } : State).Inv := { h with fbCap := Nat.zero_le _ }

theorem setFaBuf (h : s.Inv) {B : List Byte} (hB : B.length = 0 ∨ B.length = 60) :
    ({ s with faBuf := B } : State).Inv := { h with faLen := hB }

/-- R181: the layer of a header's tag names its slot. -/
theorem setSlot (h : s.Inv) {x : Header} (hx : x.inv s.cfg.flagsWidth) :
    (if layerOf x.tag = 2 then { s with l2 := some x } else { s with l3 := some x } : State).Inv := by
  split
  case isTrue hl =>
    exact { h with l2Inv := fun y hy => Option.mem_some.1 hy ▸ ⟨layerOf_eq_two.1 hl, hx⟩ }
  case isFalse hl =>
    exact { h with l3Inv := fun y hy => Option.mem_some.1 hy ▸ ⟨mt layerOf_eq_two.2 hl, hx⟩ }

theorem clearFrame (h : s.Inv) : ({ s with l2 := none, l3 := none, faBuf := [] } : State).Inv :=
  { h with l2Inv := nofun, l3Inv := nofun, faLen := .inl rfl }

/-- R184: the layer-3 header, where there is one, is an Arp or an IPv4 header. -/
theorem parseFrame (h : s.Inv) (B : List Byte) : (s.parseFrame B).Inv where
  __ := h
  l2Inv y hy := Option.mem_some.1 hy ▸ ⟨rfl, Header.inv_decodeHeader _ _ _⟩
  l3Inv y hy := by
    simp only [State.parseFrame_l3, parsePayload] at hy
    split at hy
    · cases hy
    · rw [← Option.mem_some.1 hy]
      exact ⟨ne_ethernet_of_etherTypeLookup ‹_›, Header.inv_decodeHeader _ _ _⟩
  faLen := .inl rfl

end

/-! ### Resets -/

theorem resetWith {cfg : Config} (hcfg : cfg.valid) : (State.resetWith cfg).Inv where
  params := hcfg
  statusReserved := by simp
  statusCode := by simp [reachableCodes, Machine.statusCode]
  bfSize := List.length_replicate
  bfInv _ hx _ hb := by simp [List.eq_of_mem_replicate hx] at hb
  hSize := List.length_replicate
  hInv _ hx _ hy := by simp [List.eq_of_mem_replicate hx] at hy
  qSize := List.length_replicate
  qInv _ hx _ hp := by simp [List.eq_of_mem_replicate hx] at hp
  fbCap := Nat.zero_le _
  l2Inv := nofun
  l3Inv := nofun
  faLen := .inl rfl
  memWf := Memory.wf_nil _

section
variable {s : State}

theorem softReset (h : s.Inv) : s.softReset.Inv := { resetWith h.params with memWf := h.memWf }

theorem hardReset (h : s.Inv) : s.hardReset.Inv := { resetWith h.params with }

/-! ### Operand forms: a check that fails keeps the invariant, so the rest of the command decides -/

variable {k : StepResult}

theorem done (h : s.Inv) : EndsIn s.done State.Inv := endsIn_done.2 (h.withStatus (by decide))

theorem command (h : s.Inv) {i : Instr} (hk : EndsIn k State.Inv) :
    EndsIn (s.command i k) State.Inv :=
  endsIn_command.2 ⟨fun _ => hk, fun _ => h.withStatus (by decide)⟩

theorem withBfRaw (h : s.Inv) {i : RegIdx} {k : BitField → StepResult}
    (hk : ∀ b, EndsIn (k b) State.Inv) : EndsIn (s.withBfRaw i k) State.Inv :=
  endsIn_withBfRaw.2 ⟨fun b _ => hk b, fun _ => h.withStatus (by decide)⟩

theorem withBf (h : s.Inv) {i : RegIdx} {k : BitField → StepResult}
    (hk : ∀ b, EndsIn (k b) State.Inv) : EndsIn (s.withBf i k) State.Inv :=
  endsIn_withBf.2 ⟨fun b _ => ⟨fun _ => h.withStatus (by decide), fun _ => hk b⟩,
    fun _ => h.withStatus (by decide)⟩

theorem withH (h : s.Inv) {i : RegIdx} {k : Header → StepResult}
    (hk : ∀ x, s.hReg i = some x → EndsIn (k x) State.Inv) : EndsIn (s.withH i k) State.Inv :=
  endsIn_withH.2 ⟨hk, fun _ => h.withStatus (by decide)⟩

theorem withQ (h : s.Inv) {i : RegIdx} {k : Predicate → StepResult}
    (hk : ∀ p, s.qReg i = some p → EndsIn (k p) State.Inv) : EndsIn (s.withQ i k) State.Inv :=
  endsIn_withQ.2 ⟨hk, fun _ => h.withStatus (by decide)⟩

theorem withTag (h : s.Inv) {imm : Imm} {k : Tag → StepResult}
    (hk : ∀ g, EndsIn (k g) State.Inv) : EndsIn (s.withTag imm k) State.Inv :=
  endsIn_withTag.2 ⟨fun g _ => hk g, fun _ => h.withStatus (by decide)⟩

theorem withSlot (h : s.Inv) {slot : Option Header} {k : Header → StepResult}
    (hk : ∀ x, slot = some x → EndsIn (k x) State.Inv) : EndsIn (s.withSlot slot k) State.Inv :=
  endsIn_withSlot.2 ⟨hk, fun _ => h.withStatus (by decide)⟩

theorem withField (h : s.Inv) {g : Tag} {id : Nat} (hk : EndsIn k State.Inv) :
    EndsIn (s.withField g id k) State.Inv :=
  endsIn_withField.2 ⟨fun _ => hk, fun _ => h.withStatus (by decide)⟩

theorem withFits (h : s.Inv) {g : Tag} {id v : Nat}
    (hk : v < 2 ^ fieldWidth s.cfg.flagsWidth g id → EndsIn k State.Inv) :
    EndsIn (s.withFits g id v k) State.Inv :=
  endsIn_withFits.2 ⟨hk, fun _ => h.withStatus (by decide)⟩

theorem withRange (h : s.Inv) {off n : Nat} (hk : off + n ≤ s.cfg.memSize → EndsIn k State.Inv) :
    EndsIn (s.withRange off n k) State.Inv :=
  endsIn_withRange.2 ⟨hk, fun _ => h.withStatus (by decide)⟩

theorem withRoom (h : s.Inv) {n : Nat}
    (hk : s.fb.length + n ≤ s.cfg.fbCapBits → EndsIn k State.Inv) :
    EndsIn (s.withRoom n k) State.Inv :=
  endsIn_withRoom.2 ⟨hk, fun _ => h.withStatus (by decide)⟩

theorem withFbRange (h : s.Inv) {a b : Nat} (hk : EndsIn k State.Inv) :
    EndsIn (s.withFbRange a b k) State.Inv :=
  endsIn_withFbRange.2 ⟨fun _ => hk, fun _ => h.withStatus (by decide)⟩

theorem withWholeBytes (h : s.Inv) {n : Nat} (hk : EndsIn k State.Inv) :
    EndsIn (s.withWholeBytes n k) State.Inv :=
  endsIn_withWholeBytes.2 ⟨fun _ => hk, fun _ => h.withStatus (by decide)⟩

theorem withVariant (h : s.Inv) {x : Header} {g : Tag} (hk : x.tag = g → EndsIn k State.Inv) :
    EndsIn (s.withVariant x g k) State.Inv :=
  endsIn_withVariant.2 ⟨hk, fun _ => h.withStatus (by decide)⟩

/-! ### Shared command bodies -/

theorem createHeader (h : s.Inv) (g : Tag) (hs : RegIdx) :
    EndsIn (s.createHeader g hs) State.Inv :=
  h.withH fun _ _ => h.withVariant fun hg => h.withRange fun hr =>
    ((h.memWrite (by rwa [length_encodeHeader, hg])).setRes0 _).done

theorem parseHeader (h : s.Inv) (g : Tag) (hd : RegIdx) :
    EndsIn (s.parseHeader g hd) State.Inv :=
  h.withRange fun _ => (h.drawn.setH (Header.inv_decodeHeader _ _ _)).done

theorem matchHeader (h : s.Inv) (p : Predicate) (x : Header) :
    EndsIn (s.matchHeader p x) State.Inv :=
  endsIn_matchHeader.2 ⟨fun _ => (h.setRes0 _).withStatus (by decide),
    fun _ _ => (h.setRes0 _).withStatus (by decide), fun _ _ => h.withStatus (by decide)⟩

/-! ### Commands -/

theorem execNop (h : s.Inv) : EndsIn (execNop s) State.Inv := h.command h.done

theorem execBfNew (h : s.Inv) (bd : RegIdx) (width : Imm) :
    EndsIn (execBfNew bd width s) State.Inv :=
  h.command (endsIn_ite.2 ⟨fun hb => (h.setBf hb).done,
    fun _ => endsIn_raise.2 (h.withStatus (by decide))⟩)

theorem execBfBits (h : s.Inv) (bs : RegIdx) : EndsIn (execBfBits bs s) State.Inv :=
  h.command (h.withBf fun _ => ((h.setRes0 _).setRes1 _).done)

theorem execBfVal (h : s.Inv) (bs : RegIdx) : EndsIn (execBfVal bs s) State.Inv :=
  h.command (h.withBf fun _ => (h.setRes0 _).done)

theorem execBfEq (h : s.Inv) (ba bb : RegIdx) : EndsIn (execBfEq ba bb s) State.Inv :=
  h.command (h.withBfRaw fun _ => h.withBfRaw fun _ => (h.setRes0 _).done)

theorem execFbClr (h : s.Inv) : EndsIn (execFbClr s) State.Inv := h.command h.fbClear.done

theorem execFbAppb (h : s.Inv) : EndsIn (execFbAppb s) State.Inv :=
  h.command (h.withRange fun _ => h.withRoom fun hroom =>
    (h.drawn.fbAppend (by simpa using hroom)).done)

theorem execFbAppf (h : s.Inv) (bs : RegIdx) : EndsIn (execFbAppf bs s) State.Inv :=
  h.command (h.withBf fun _ => h.withRoom fun hroom =>
    (h.fbAppend (by rwa [length_bitsOf])).done)

theorem execFbSlb (h : s.Inv) : EndsIn (execFbSlb s) State.Inv :=
  h.command (h.withFbRange (endsIn_ite.2 ⟨fun _ => endsIn_raise.2 (h.withStatus (by decide)),
    fun _ => ((h.setRes0 _).setRes1 _).done⟩))

theorem execFbSly (h : s.Inv) : EndsIn (execFbSly s) State.Inv :=
  h.command (h.withFbRange (h.withWholeBytes (h.withRange fun hr =>
    ((h.memWrite (by rw [length_bitsToBytes, length_sliceBits]; omega)).setRes0 _).done)))

theorem execFbTob (h : s.Inv) : EndsIn (execFbTob s) State.Inv :=
  h.command (h.withWholeBytes (h.withRange fun hr =>
    ((h.memWrite (by rwa [length_bitsToBytes])).setRes0 _).done))

theorem execHdrInit (h : s.Inv) (hd : RegIdx) (tag : Imm) :
    EndsIn (execHdrInit hd tag s) State.Inv :=
  h.command (h.withTag fun g => (h.setH (Header.inv_zeros _ g)).done)

theorem execHdrSet (h : s.Inv) (hd : RegIdx) (field : Imm) :
    EndsIn (execHdrSet hd field s) State.Inv :=
  h.command (h.withH fun _ hx => h.withField (h.withFits fun hv =>
    (h.setH (Header.inv_set (h.of_hReg hx) hv)).done))

theorem execHdrGet (h : s.Inv) (hs : RegIdx) (field : Imm) :
    EndsIn (execHdrGet hs field s) State.Inv :=
  h.command (h.withH fun _ _ => h.withField (h.setRes0 _).done)

theorem execHdrTag (h : s.Inv) (hs : RegIdx) : EndsIn (execHdrTag hs s) State.Inv :=
  h.command (h.setRes0 _).done

theorem execHdrCopy (h : s.Inv) (hd hs : RegIdx) : EndsIn (execHdrCopy hd hs s) State.Inv :=
  h.command (h.withH fun _ hx => (h.setH (h.of_hReg hx)).done)

theorem execHdrUnwrap (h : s.Inv) (hs : RegIdx) (tag : Imm) :
    EndsIn (execHdrUnwrap hs tag s) State.Inv :=
  h.command (h.withTag fun _ => h.withH fun _ _ => h.withVariant fun _ => h.done)

theorem execFaNew (h : s.Inv) : EndsIn (execFaNew s) State.Inv := h.command h.clearFrame.done

theorem execFaSet (h : s.Inv) (hs : RegIdx) : EndsIn (execFaSet hs s) State.Inv :=
  h.command (h.withH fun _ hx => (h.setSlot (h.of_hReg hx)).done)

theorem execFaGet (h : s.Inv) (hd : RegIdx) (layer : Imm) :
    EndsIn (execFaGet hd layer s) State.Inv :=
  h.command (h.withSlot fun _ hx => (h.setH (h.of_slot hx)).done)

theorem execFaParse (h : s.Inv) : EndsIn (execFaParse s) State.Inv :=
  h.command (h.withRange fun _ => (h.drawn.parseFrame _).done)

/-- The length check, whose code is not one a command may leave, never fails (R188). -/
theorem execFaBuild (h : s.Inv) : EndsIn (execFaBuild s) State.Inv := by
  refine h.command (h.withSlot fun x _ => ?_)
  split
  · exact endsIn_ite.2 ⟨fun _ => (h.setFaBuf (.inl rfl)).done,
      fun _ => endsIn_raise.2 (h.withStatus (by decide))⟩
  · next e _ =>
    have hlen := length_frameBytes_le s.cfg.flagsWidth e x
    exact endsIn_ite.2 ⟨fun hlong => absurd hlen (Nat.not_le.2 hlong),
      fun _ => (h.setFaBuf (.inr (length_padFrame hlen))).done⟩

theorem execFaRead (h : s.Inv) : EndsIn (execFaRead s) State.Inv :=
  h.command (h.withRange fun hr => ((h.memWrite hr).setRes0 _).done)

theorem execQInit (h : s.Inv) (qd : RegIdx) (tag : Imm) : EndsIn (execQInit qd tag s) State.Inv :=
  h.command (h.withTag fun g => (h.setQ (Predicate.inv_wildcards _ g)).done)

theorem execQSet (h : s.Inv) (qd : RegIdx) (field : Imm) :
    EndsIn (execQSet qd field s) State.Inv :=
  h.command (h.withQ fun _ hp => h.withField (h.withFits fun hv =>
    (h.setQ (Predicate.inv_set (e := some _) (h.of_qReg hp) hv)).done))

theorem execQAny (h : s.Inv) (qd : RegIdx) (field : Imm) :
    EndsIn (execQAny qd field s) State.Inv :=
  h.command (h.withQ fun _ hp => h.withField
    (h.setQ (Predicate.inv_set (h.of_qReg hp) (Nat.two_pow_pos _))).done)

theorem execQMatch (h : s.Inv) (qs hs : RegIdx) : EndsIn (execQMatch qs hs s) State.Inv :=
  h.command (h.withQ fun p _ => h.withH fun x _ => h.matchHeader p x)

theorem execQMatchfa (h : s.Inv) (qs : RegIdx) : EndsIn (execQMatchfa qs s) State.Inv := by
  refine h.command (h.withQ fun p _ => ?_)
  cases s.slot (layerOf p.tag) with
  | none => exact (h.setRes0 0).done
  | some x => exact h.matchHeader p x

theorem exec (h : s.Inv) (i : Instr) : EndsIn (exec i s) State.Inv :=
  match i with
  | .nop => h.execNop
  | .bfNew bd width => h.execBfNew bd width
  | .bfBits bs => h.execBfBits bs
  | .bfVal bs => h.execBfVal bs
  | .bfEq ba bb => h.execBfEq ba bb
  | .fbClr => h.execFbClr
  | .fbAppb => h.execFbAppb
  | .fbAppf bs => h.execFbAppf bs
  | .fbSlb => h.execFbSlb
  | .fbSly => h.execFbSly
  | .fbTob => h.execFbTob
  | .hdrInit hd tag => h.execHdrInit hd tag
  | .hdrSet hd field => h.execHdrSet hd field
  | .hdrGet hs field => h.execHdrGet hs field
  | .hdrTag hs => h.execHdrTag hs
  | .hdrCopy hd hs => h.execHdrCopy hd hs
  | .hdrUnwrap hs tag => h.execHdrUnwrap hs tag
  | .ethCreate hs => h.command (h.createHeader .ethernet hs)
  | .ethParse hd => h.command (h.parseHeader .ethernet hd)
  | .arpCreate hs => h.command (h.createHeader .arp hs)
  | .arpParse hd => h.command (h.parseHeader .arp hd)
  | .ip4Create hs => h.command (h.createHeader .ipv4 hs)
  | .ip4Parse hd => h.command (h.parseHeader .ipv4 hd)
  | .faNew => h.execFaNew
  | .faSet hs => h.execFaSet hs
  | .faGet hd layer => h.execFaGet hd layer
  | .faParse => h.execFaParse
  | .faBuild => h.execFaBuild
  | .faRead => h.execFaRead
  | .qInit qd tag => h.execQInit qd tag
  | .qSet qd field => h.execQSet qd field
  | .qAny qd field => h.execQAny qd field
  | .qMatch qs hs => h.execQMatch qs hs
  | .qMatchfa qs => h.execQMatchfa qs

/-! ### Host accesses and steps -/

theorem runCommand (h : s.Inv) (w : Word) : EndsIn (s.runCommand w) State.Inv := by
  cases hd : decode w with
  | error e => rw [State.runCommand_error hd]; exact endsIn_raise.2 (h.withStatus (by decide))
  | ok i => rw [State.runCommand_ok hd]; exact h.exec i

variable {t : State}

theorem of_writeReg (h : s.Inv) {r : HostReg} {v : Word} (ht : s.writeReg r v = .next t) :
    t.Inv := by
  rcases State.writeReg_next ht with ⟨-, rfl⟩ | ⟨-, rfl⟩ | ⟨-, ht⟩ | ⟨-, rfl⟩ | ⟨-, rfl⟩ |
    ⟨-, rfl⟩ | ⟨-, rfl⟩ | ⟨-, rfl⟩
  · split
    · exact h.softReset
    · exact h
  · exact h.setStatus_hostWrite v
  · exact ((h.setCmd v).runCommand v).of_next ht
  · exact { h with }
  · exact { h with }
  · exact { h with }
  · exact { h with }
  · exact h

theorem of_hostAccess (h : s.Inv) {a : HostAccess} (ht : s.hostAccess a = .next t) : t.Inv := by
  cases a with
  | read size off =>
    rcases State.hostRead_next ht with ⟨r, -, -, rfl⟩ | ⟨a, -, -, rfl⟩
    · exact h.setRdata _
    · exact h.drawn.setRdata _
  | write size off v =>
    rcases State.hostWrite_next ht with ⟨r, -, -, ht⟩ | ⟨a, ha, -, rfl⟩
    · exact h.of_writeReg ht
    · exact h.memWrite (hostTarget_mem ha).2
  | hardwareReset => rw [← next_eq_next.1 ht]; exact h.hardReset

theorem of_step (h : s.Inv) (ht : step s = .next t) : t.Inv := by
  rcases step_next ht with ⟨-, rfl⟩ | ⟨a, rest, -, ht⟩
  · exact h
  · exact (h.setPending rest).of_hostAccess ht

end

end State.Inv

/-- Settles O24: by the cases of a step, the commands by one lemma per meaning. -/
theorem everyStepKeepsTheInvariant : Obligations.EveryStepKeepsTheInvariant :=
  fun _ _ => State.Inv.of_step

end Sys2Proof.Machine
end

section
/-! PROOFS. Which commands may change which piece of state (10_state.md R22, R23, R45; 45_matcher.md
R209): one rule per update of the state; a command then passes if its updates are those listed for
it. -/

namespace Sys2Proof.Machine

/-! ### The commands listed for each piece of state -/

abbrev res0Writers : List String := ["BF.BITS", "BF.VAL", "BF.EQ", "FB.SLB", "FB.SLY", "FB.TOB",
  "HDR.GET", "HDR.TAG", "ETH.CREATE", "ARP.CREATE", "IP4.CREATE", "FA.READ", "Q.MATCH",
  "Q.MATCHFA"]

abbrev res1Writers : List String := ["BF.BITS", "FB.SLB"]

abbrev fbWriters : List String := ["FB.CLR", "FB.APPB", "FB.APPF"]

abbrev faBufWriters : List String := ["FA.NEW", "FA.PARSE", "FA.BUILD"]

abbrev bfWriters : List String := ["BF.NEW"]

abbrev hWriters : List String := ["HDR.INIT", "HDR.SET", "HDR.COPY", "ETH.PARSE", "ARP.PARSE",
  "IP4.PARSE", "FA.GET"]

abbrev qWriters : List String := ["Q.INIT", "Q.SET", "Q.ANY"]

abbrev slotWriters : List String := ["FA.NEW", "FA.SET", "FA.PARSE"]

abbrev memWriters : List String := ["ETH.CREATE", "ARP.CREATE", "IP4.CREATE", "FB.SLY", "FB.TOB",
  "FA.READ"]

/-- State `t` differs from `s` only where the command named `m` may write. -/
structure WritesOnly (m : String) (s t : State) : Prop where
  kept : t.arg0 = s.arg0 ∧ t.arg1 = s.arg1 ∧ t.arg2 = s.arg2 ∧ t.arg3 = s.arg3 ∧ t.cmd = s.cmd ∧
    t.cfg = s.cfg ∧ t.pending = s.pending ∧ t.rdata = s.rdata
  res0 : t.res0 ≠ s.res0 → m ∈ res0Writers
  res1 : t.res1 ≠ s.res1 → m ∈ res1Writers
  fb : t.fb ≠ s.fb → m ∈ fbWriters
  faBuf : t.faBuf ≠ s.faBuf → m ∈ faBufWriters
  bf : t.bf ≠ s.bf → m ∈ bfWriters
  h : t.h ≠ s.h → m ∈ hWriters
  q : t.q ≠ s.q → m ∈ qWriters
  slots : t.l2 ≠ s.l2 ∨ t.l3 ≠ s.l3 → m ∈ slotWriters
  mem : t.mem ≠ s.mem → m ∈ memWriters

section
variable {m : String} {s t : State}

/-! ### Updates of the state: each is free, or free for the commands listed for it -/

@[simp] theorem writesOnly_self : WritesOnly m s s := by constructor <;> simp

@[simp] theorem writesOnly_withStatus {c : StatusCode} :
    WritesOnly m s (t.withStatus c) ↔ WritesOnly m s t :=
  ⟨fun h => { h with }, fun h => { h with }⟩

@[simp] theorem writesOnly_drawn : WritesOnly m s t.drawn ↔ WritesOnly m s t :=
  ⟨fun h => { h with }, fun h => { h with }⟩

theorem writesOnly_setRes0 (hm : m ∈ res0Writers) {v : Nat} :
    WritesOnly m s (t.setRes0 v) ↔ WritesOnly m s t :=
  ⟨fun h => { h with res0 := fun _ => hm }, fun h => { h with res0 := fun _ => hm }⟩

theorem writesOnly_setRes1 (hm : m ∈ res1Writers) {v : Nat} :
    WritesOnly m s (t.setRes1 v) ↔ WritesOnly m s t :=
  ⟨fun h => { h with res1 := fun _ => hm }, fun h => { h with res1 := fun _ => hm }⟩

theorem writesOnly_setFb (hm : m ∈ fbWriters) {S : List Bool} :
    WritesOnly m s { t with fb := S } ↔ WritesOnly m s t :=
  ⟨fun h => { h with fb := fun _ => hm }, fun h => { h with fb := fun _ => hm }⟩

theorem writesOnly_fbAppend (hm : m ∈ fbWriters) {S : List Bool} :
    WritesOnly m s (t.fbAppend S) ↔ WritesOnly m s t :=
  writesOnly_setFb hm

theorem writesOnly_setFaBuf (hm : m ∈ faBufWriters) {B : List Byte} :
    WritesOnly m s { t with faBuf := B } ↔ WritesOnly m s t :=
  ⟨fun h => { h with faBuf := fun _ => hm }, fun h => { h with faBuf := fun _ => hm }⟩

theorem writesOnly_setBf (hm : m ∈ bfWriters) {i : RegIdx} {b : BitField} :
    WritesOnly m s (t.setBf i b) ↔ WritesOnly m s t :=
  ⟨fun h => { h with bf := fun _ => hm }, fun h => { h with bf := fun _ => hm }⟩

theorem writesOnly_setH (hm : m ∈ hWriters) {i : RegIdx} {x : Header} :
    WritesOnly m s (t.setH i x) ↔ WritesOnly m s t :=
  ⟨fun h => { h with h := fun _ => hm }, fun h => { h with h := fun _ => hm }⟩

theorem writesOnly_setQ (hm : m ∈ qWriters) {i : RegIdx} {p : Predicate} :
    WritesOnly m s (t.setQ i p) ↔ WritesOnly m s t :=
  ⟨fun h => { h with q := fun _ => hm }, fun h => { h with q := fun _ => hm }⟩

theorem writesOnly_setL2 (hm : m ∈ slotWriters) {x : Option Header} :
    WritesOnly m s { t with l2 := x } ↔ WritesOnly m s t :=
  ⟨fun h => { h with slots := fun _ => hm }, fun h => { h with slots := fun _ => hm }⟩

theorem writesOnly_setL3 (hm : m ∈ slotWriters) {x : Option Header} :
    WritesOnly m s { t with l3 := x } ↔ WritesOnly m s t :=
  ⟨fun h => { h with slots := fun _ => hm }, fun h => { h with slots := fun _ => hm }⟩

theorem writesOnly_setFrame (hm : m ∈ slotWriters) (hm' : m ∈ faBufWriters)
    {x y : Option Header} {B : List Byte} :
    WritesOnly m s { t with l2 := x, l3 := y, faBuf := B } ↔ WritesOnly m s t :=
  ⟨fun h => { h with slots := fun _ => hm, faBuf := fun _ => hm' },
    fun h => { h with slots := fun _ => hm, faBuf := fun _ => hm' }⟩

theorem writesOnly_parseFrame (hm : m ∈ slotWriters) (hm' : m ∈ faBufWriters) {B : List Byte} :
    WritesOnly m s (t.parseFrame B) ↔ WritesOnly m s t :=
  writesOnly_setFrame hm hm'

theorem writesOnly_memWrite (hm : m ∈ memWriters) {a : Nat} {bs : List Byte} :
    WritesOnly m s (t.memWrite a bs) ↔ WritesOnly m s t :=
  ⟨fun h => { h with mem := fun _ => hm }, fun h => { h with mem := fun _ => hm }⟩

end

/-! ### Commands -/

/-- Neither where a check fails nor at its end does a command write what is not listed for it. Three
commands choose between two ends by a slot of the FrameAssembly or by a layer. -/
theorem exec_endsIn_writesOnly (i : Instr) (s : State) :
    EndsIn (exec i s) (WritesOnly i.mnemonic s) := by
  cases i
  case faSet hs =>
    simp only [exec, execFaSet, endsIn_command, endsIn_withH, endsIn_done, writesOnly_withStatus,
      writesOnly_self, implies_true, and_true]
    intro _ x _
    split
    · exact (writesOnly_setL2 (by simp [Instr.mnemonic])).2 writesOnly_self
    · exact (writesOnly_setL3 (by simp [Instr.mnemonic])).2 writesOnly_self
  case faBuild =>
    simp only [exec, execFaBuild, endsIn_command, endsIn_withSlot, writesOnly_withStatus,
      writesOnly_self, implies_true, and_true]
    intro _ x _
    have hbuf (B : List Byte) : WritesOnly "FA.BUILD" s { s with faBuf := B } :=
      (writesOnly_setFaBuf (by decide)).2 writesOnly_self
    split <;> simp [Instr.mnemonic, hbuf]
  case qMatchfa qs =>
    simp only [exec, execQMatchfa, endsIn_command, endsIn_withQ, writesOnly_withStatus,
      writesOnly_self, implies_true, and_true]
    intro _ p _
    split <;> simp [Instr.mnemonic, writesOnly_setRes0]
  all_goals
    simp [exec, execNop, execBfNew, execBfBits, execBfVal, execBfEq, execFbClr, execFbAppb,
      execFbAppf, execFbSlb, execFbSly, execFbTob, execHdrInit, execHdrSet, execHdrGet, execHdrTag,
      execHdrCopy, execHdrUnwrap, execEthCreate, execEthParse, execArpCreate, execArpParse,
      execIp4Create, execIp4Parse, execFaNew, execFaGet, execFaParse, execFaRead, execQInit,
      execQSet, execQAny, execQMatch, Instr.mnemonic,
      writesOnly_setRes0, writesOnly_setRes1, writesOnly_setFb, writesOnly_fbAppend,
      writesOnly_setBf, writesOnly_setH, writesOnly_setQ, writesOnly_setFrame,
      writesOnly_parseFrame, writesOnly_memWrite]

/-- Settles O23: every command by its updates. -/
theorem commandsWriteOnlyTheirState : Obligations.CommandsWriteOnlyTheirState := by
  intro i s t ht
  obtain ⟨kept, res0, res1, fb, faBuf, bf, h, q, slots, mem⟩ :=
    (exec_endsIn_writesOnly i s).of_next ht
  exact ⟨kept, res0, res1, fb, faBuf, bf, h, q, slots, mem⟩

end Sys2Proof.Machine
end

section
/-! PROOFS. A host write of a register as a step (10_state.md R22, R25; 20_memory.md R67). -/

namespace Sys2Proof.Machine

section
variable {s : State} {r : HostReg} {v : Word} {rest : List HostAccess}

theorem State.hostWrite_hostRegOffset :
    s.hostWrite .b64 (hostRegOffset r) v = s.writeReg r v := by
  simp [State.hostWrite, hostTarget_hostRegOffset]

theorem step_writeReg (h : s.pending = .write .b64 (hostRegOffset r) v :: rest) :
    step s = (s.setPending rest).writeReg r v :=
  (step_pending h).trans State.hostWrite_hostRegOffset

end

/-- Settles O10: the write to CMD runs the decoded instruction. -/
theorem stepRunsTheDecodedCommand : Obligations.StepRunsTheDecodedCommand :=
  fun _ _ _ _ hp hd => (step_writeReg (r := .cmd) hp).trans (State.runCommand_ok hd)

/-- Settles O11: each ARG register is written at its own offset. -/
theorem hostWriteOfArgStoresTheValue : Obligations.HostWriteOfArgStoresTheValue :=
  fun _ _ _ => ⟨step_writeReg (r := .arg0), step_writeReg (r := .arg1),
    step_writeReg (r := .arg2), step_writeReg (r := .arg3)⟩

end Sys2Proof.Machine
end

section
/-! PROOFS. The host window as steps: the accesses that it takes, at a register's offset and in the
MEM window, and the accesses that it refuses (20_memory.md R67 to R73). -/

namespace Sys2Proof.Machine

/-! ### What an offset of the host window is -/

/-- The registers lie at whole words below 0x060, and none at 0x018 (R67). -/
theorem hostRegOffset_bounds (r : HostReg) :
    hostRegOffset r < 0x060 ∧ hostRegOffset r % 8 = 0 ∧
      ¬ (0x018 ≤ hostRegOffset r ∧ hostRegOffset r < 0x020) := by
  cases r <;> decide

theorem hostTarget_memWindow {cfg : Config} {k : Nat} (hk : k < cfg.memSize) :
    hostTarget cfg (0x1000 + k) = .mem k := by
  simp [hostTarget, memWindowBase, hk]

section
variable {s t : State} {r : HostReg} {size : AccessSize} {off k : Nat} {v : Word}
  {rest : List HostAccess}

/-- A host access that the window takes is 64 bits wide at a register or 8 bits wide in MEM (R68,
R69). -/
theorem State.hostAccess_next_target {a : HostAccess}
    (ha : a = .read size off ∨ a = .write size off v) (h : s.hostAccess a = .next t) :
    (size = .b64 ∧ ∃ r, off = hostRegOffset r) ∨
      (size = .b8 ∧ ∃ k, off = 0x1000 + k ∧ k < s.cfg.memSize) := by
  rcases ha with rfl | rfl
  · rcases State.hostRead_next h with ⟨r, hr, hsize, -⟩ | ⟨k, hk, hsize, -⟩
    · exact .inl ⟨hsize, r, hostTarget_reg hr⟩
    · exact .inr ⟨hsize, k, hostTarget_mem hk⟩
  · rcases State.hostWrite_next h with ⟨r, hr, hsize, -⟩ | ⟨k, hk, hsize, -⟩
    · exact .inl ⟨hsize, r, hostTarget_reg hr⟩
    · exact .inr ⟨hsize, k, hostTarget_mem hk⟩

/-- PKC raises no fault (R246): what has no next state is refused. -/
theorem refused_of_forall_ne_next {x : StepResult} (h : ∀ t, x ≠ .next t) :
    ∃ e, x = .refused e := by
  cases x with
  | next t => exact absurd rfl (h t)
  | fault f => nomatch f
  | refused e => exact ⟨e, rfl⟩

/-! ### The accesses as steps -/

theorem step_readReg (h : s.pending = .read .b64 (hostRegOffset r) :: rest) :
    step s = .next ((s.setPending rest).setRdata (s.readReg r)) := by
  have hread : (s.setPending rest).readReg r = s.readReg r := by cases r <;> rfl
  simp [step_pending h, State.hostAccess, State.hostRead, hostTarget_hostRegOffset, hread]

theorem step_writeMem (hk : k < s.cfg.memSize)
    (h : s.pending = .write .b8 (0x1000 + k) v :: rest) :
    step s = .next ((s.setPending rest).memWrite k [v.setWidth 8]) := by
  simp [step_pending h, State.hostAccess, State.hostWrite, hostTarget_memWindow, hk]

theorem step_readMem (hk : k < s.cfg.memSize) (h : s.pending = .read .b8 (0x1000 + k) :: rest) :
    step s = .next ((s.setPending rest).drawn.setRdata ((s.memByte k).setWidth 64)) := by
  have hread : (s.setPending rest).memByte k = s.memByte k := rfl
  simp [step_pending h, State.hostAccess, State.hostRead, hostTarget_memWindow, hk, hread]

theorem core_run_two {u : State} (hs : step s = .next t) (ht : step t = .next u) :
    core.run 2 s = .next u := by
  simp [Host.Core.run, core, hs, ht]

end

/-! ### What the accesses leave -/

/-- A host write to STATUS clears ERR when its bit 8 is 1, and keeps every other bit (R24). -/
theorem getLsbD_statusHostWrite (st v : Word) (j : Nat) :
    (statusHostWrite st v).getLsbD j = (st.getLsbD j && !(decide (j = 8) && v.getLsbD 8)) := by
  have hmask : (0x100#64).getLsbD j = decide (j = 8) := by
    rw [show 0x100#64 = BitVec.twoPow 64 8 by decide, BitVec.getLsbD_twoPow]
    simp [eq_comm]
  unfold statusHostWrite
  generalize v.getLsbD 8 = clear
  cases clear
  case false => simp
  case true =>
    rw [if_pos rfl, BitVec.getLsbD_and, BitVec.getLsbD_not, hmask]
    rcases lt_or_ge j 64 with hj | hj
    · simp [hj]
    · simp [BitVec.getLsbD_of_ge st j hj]

/-- A read of an ARG register returns what a write has stored in it (R22). -/
theorem writeReg_arg {r : HostReg} (hr : r ∈ [HostReg.arg0, .arg1, .arg2, .arg3]) (s : State)
    (v : Word) : ∃ t, s.writeReg r v = .next t ∧ t.readReg r = v ∧ t.pending = s.pending := by
  simp only [List.mem_cons, List.not_mem_nil, or_false] at hr
  rcases hr with rfl | rfl | rfl | rfl <;> exact ⟨_, rfl, rfl, rfl⟩

theorem Memory.read?_writeBytes_singleton (m : Memory) (k : Nat) (b : Byte) :
    Memory.read? (Memory.writeBytes m k [b]) k = some b :=
  Memory.read?_writeByte .. |>.trans (if_pos rfl)

/-! ### The obligations -/

/-- Settles O12: a write of the four registers does nothing, one of STATUS is `statusHostWrite`. -/
theorem hostWriteOfReadOnlyRegisterIsIgnored :
    Obligations.HostWriteOfReadOnlyRegisterIsIgnored := by
  intro s v rest
  constructor
  · intro off hoff hp
    simp only [List.mem_cons, List.not_mem_nil, or_false] at hoff
    rcases hoff with rfl | rfl | rfl | rfl
    · exact step_writeReg (r := .res0) hp
    · exact step_writeReg (r := .res1) hp
    · exact step_writeReg (r := .fbLen) hp
    · exact step_writeReg (r := .faLen) hp
  · intro hp
    refine ⟨_, step_writeReg (r := .status) hp, ?_, fun j hj => ?_⟩
    · exact (getLsbD_statusHostWrite _ v 8).trans (by simp)
    · exact (getLsbD_statusHostWrite _ v j).trans (by simp [hj])

/-- Settles O13: the list is that of the registers, each with its offset and its value. -/
theorem hostReadOfRegisterReturnsItsValue : Obligations.HostReadOfRegisterReturnsItsValue := by
  intro s rest p hmem hp
  obtain ⟨r, -, rfl⟩ : ∃ r ∈ [HostReg.ctrl, .status, .cmd, .arg0, .arg1, .arg2, .arg3, .res0, .res1,
      .fbLen, .faLen], (hostRegOffset r, s.readReg r) = p := List.mem_map.1 hmem
  exact step_readReg hp

/-- Settles O14: the bytes by the law of a read after a write. -/
theorem hostAccessesMemoryByBytes : Obligations.HostAccessesMemoryByBytes := by
  intro s k v rest hk
  constructor
  · intro hp
    exact ⟨_, step_writeMem hk hp, Memory.read?_writeBytes_singleton _ _ _,
      fun a ha => Memory.read?_writeBytes_outside (by rw [List.length_singleton]; omega)⟩
  · intro hp
    exact ⟨s.memByte k, _, fun c hc => State.memByte_of_read? hc, step_readMem hk hp⟩

/-- Settles O15: an access with a next state would be at a register, 64 bits wide, or in MEM, 8 bits
wide. -/
theorem hostAccessOutsideTheWindowMapIsRefused :
    Obligations.HostAccessOutsideTheWindowMapIsRefused := by
  intro s a size off v rest hp ha hout
  refine refused_of_forall_ne_next fun t ht => ?_
  rw [step_pending hp] at ht
  rcases State.hostAccess_next_target ha ht with ⟨rfl, r, rfl⟩ | ⟨rfl, k, rfl, hk⟩
  · have hr := hostRegOffset_bounds r
    simp only [ne_eq, not_true_eq_false, and_false, false_or] at hout
    omega
  · simp only [State.setPending_cfg] at hk
    simp only [ne_eq, not_true_eq_false, and_false, false_or] at hout
    omega

/-- Settles O18: the two steps, and what a read finds in the state that the write leaves. -/
theorem hostReadRightAfterWriteOfArgOrByteReturnsIt :
    Obligations.HostReadRightAfterWriteOfArgOrByteReturnsIt := by
  intro s v rest
  constructor
  · intro k hk hp
    refine ⟨_, core_run_two (step_writeMem hk hp) (step_readMem hk rfl), ?_, rfl⟩
    exact congrArg (BitVec.setWidth 64)
      (State.memByte_of_read? (Memory.read?_writeBytes_singleton s.mem k (v.setWidth 8)))
  · intro off hoff hp
    obtain ⟨r, hr, rfl⟩ : ∃ r ∈ [HostReg.arg0, .arg1, .arg2, .arg3], hostRegOffset r = off :=
      List.mem_map.1 hoff
    obtain ⟨t, hwrite, hread, hpend⟩ := writeReg_arg hr (s.setPending (.read .b64 _ :: rest)) v
    exact ⟨_, core_run_two ((step_writeReg hp).trans hwrite) (step_readReg hpend), hread, rfl⟩

end Sys2Proof.Machine
end

section
/-! PROOFS. The command word of an instruction and the fields of a word (30_encoding.md R80), and
the decoder row by row of the opcode map (R83, R84). -/

namespace Sys2Proof

open Sys2Proof.Claims

/-! ### The fields of a command word (R80) -/

section
variable (w : Word)

theorem commandFields_opc : (commandFields w).opc = w.toNat % 2 ^ 8 := by
  simp [commandFields, bitsHiLo]

theorem commandFields_a : (commandFields w).a.val = w.toNat / 2 ^ 8 % 2 ^ 4 := rfl

theorem commandFields_b : (commandFields w).b.val = w.toNat / 2 ^ 12 % 2 ^ 4 := rfl

theorem commandFields_imm : (commandFields w).imm.val = w.toNat / 2 ^ 16 % 2 ^ 8 := rfl

theorem commandFields_rsv : (commandFields w).rsv = w.toNat / 2 ^ 24 := by
  simp only [commandFields, bitsHiLo]
  omega

end

/-- A word with RSV = 0 is the word of its fields. -/
theorem packFields_commandFields {w : Word} (h : (commandFields w).rsv = 0) :
    packFields (commandFields w).opc (commandFields w).a (commandFields w).b
      (commandFields w).imm = w := by
  rw [commandFields_rsv] at h
  apply BitVec.eq_of_toNat_eq
  rw [packFields, BitVec.toNat_ofNat, commandFields_opc, commandFields_a, commandFields_b,
    commandFields_imm]
  omega

theorem commandFields_packFields {opc : Nat} (h : opc < 256) (a b : RegIdx) (imm : Imm) :
    commandFields (packFields opc a b imm) = ⟨opc, a, b, imm, 0⟩ := by
  have hword : (packFields opc a b imm).toNat =
      opc + 2 ^ 8 * a.val + 2 ^ 12 * b.val + 2 ^ 16 * imm.val := by
    rw [packFields, BitVec.toNat_ofNat]
    omega
  simp only [commandFields, bitsHiLo, hword, CommandFields.mk.injEq, Fin.ext_iff]
  omega

theorem decode_packFields {opc : Nat} (h : opc < 256) (a b : RegIdx) (imm : Imm) :
    decode (packFields opc a b imm) = decodeFields ⟨opc, a, b, imm, 0⟩ := by
  rw [decode, commandFields_packFields h]
  exact if_pos rfl

/-- Every instruction's word has an opcode of its own, at which the decoder takes the operands out
of the fields in which the encoder put them. -/
theorem decode_encode (i : Instr) : decode (encode i) = .ok i := by
  cases i <;> exact decode_packFields (by decide) _ _ _

/-! ### The decoder, row by row (R83, R84) -/

/-- Check (3) of R83: the fields that the row does not use are 0. -/
abbrev OpcodeRow.unusedZero (r : OpcodeRow) (f : CommandFields) : Prop :=
  (r.a = none → f.a.val = 0) ∧ (r.b = none → f.b.val = 0) ∧ (r.imm = none → f.imm.val = 0)

/-- Checks (1) to (3) of R83 for one row. -/
abbrev OpcodeRow.selects (r : OpcodeRow) (f : CommandFields) : Prop :=
  f.rsv = 0 ∧ f.opc = r.opc ∧ r.unusedZero f

/-- Checks (4) and (5) of R83: the fields that the row uses have legal values. -/
abbrev OpcodeRow.valuesLegal (r : OpcodeRow) (cfg : Config) (f : CommandFields) : Prop :=
  (∀ x ∈ r.a, f.a.val < x.size cfg) ∧ (∀ x ∈ r.b, f.b.val < x.size cfg) ∧
    ∀ k ∈ r.imm, k.holds f.imm.val

/-- Instruction `i` is the one of row `r` with operands from the fields `f`. -/
structure OpcodeRow.Reads (r : OpcodeRow) (f : CommandFields) (i : Instr) : Prop where
  mnemonic : i.mnemonic = r.mnemonic
  word : encode i = packFields f.opc f.a f.b f.imm
  wellFormed : ∀ cfg, i.wellFormed cfg = true ↔ r.valuesLegal cfg f

/-- The decoder's answer `x` on the fields `f` is that of row `r`: check (3), then the row's
instruction. -/
def OpcodeRow.Answers (r : OpcodeRow) (f : CommandFields) (x : Except DecodeError Instr) : Prop :=
  (r.unusedZero f ∧ ∃ i, x = .ok i ∧ r.Reads f i) ∨
    (¬ r.unusedZero f ∧ x = .error .unusedField)

/-- Membership in a legal set as the meanings check it. -/
def ImmSet.legal : ImmSet → Imm → Bool
  | .any, _ => true
  | .tag, n => legalTagImm n
  | .layer, n => legalLayerImm n

theorem ImmSet.legal_iff_holds (k : ImmSet) (n : Imm) : k.legal n = true ↔ k.holds n.val := by
  cases k with
  | any => exact iff_of_true rfl (Nat.le_of_lt_succ n.isLt)
  | tag => simp [ImmSet.legal, legalTagImm, or_assoc]
  | layer => simp [ImmSet.legal, legalLayerImm]

/-! #### The four forms: what an instruction has to be for its form to answer for its row -/

section
variable {m : String} {opc : Nat} {x y : RegFile} {k : ImmSet} {r : OpcodeRow} {f : CommandFields}

theorem answers_ite {P : Prop} [Decidable P] {i : Instr} (hP : P ↔ r.unusedZero f)
    (h : P → r.Reads f i) : r.Answers f (if P then .ok i else .error .unusedField) := by
  split
  case isTrue hp => exact .inl ⟨hP.1 hp, i, rfl, h hp⟩
  case isFalse hp => exact .inr ⟨mt hP.2 hp, rfl⟩

theorem formNone_answers {i : Instr} (hopc : f.opc = opc)
    (hm : i.mnemonic = m := by rfl) (he : encode i = packFields opc 0 0 0 := by rfl)
    (hwf : ∀ cfg, i.wellFormed cfg = true := by intros; rfl) :
    OpcodeRow.Answers ⟨m, opc, none, none, none⟩ f (f.formNone i) := by
  refine answers_ite (by simp [OpcodeRow.unusedZero]) fun ⟨ha, hb, hn⟩ => ⟨hm, ?_, fun cfg => ?_⟩
  · rw [he, hopc, show f.a = 0 from Fin.ext ha, show f.b = 0 from Fin.ext hb,
      show f.imm = 0 from Fin.ext hn]
  · simp [OpcodeRow.valuesLegal, hwf]

theorem formA_answers {mk : RegIdx → Instr} (hopc : f.opc = opc)
    (hm : ∀ a, (mk a).mnemonic = m := by intros; rfl)
    (he : ∀ a, encode (mk a) = packFields opc a 0 0 := by intros; rfl)
    (hwf : ∀ cfg a, (mk a).wellFormed cfg = (decide (a.val < x.size cfg) && true) := by
      intros; rfl) :
    OpcodeRow.Answers ⟨m, opc, some x, none, none⟩ f (f.formA mk) := by
  refine answers_ite (by simp [OpcodeRow.unusedZero]) fun ⟨hb, hn⟩ => ⟨hm _, ?_, fun cfg => ?_⟩
  · rw [he, hopc, show f.b = 0 from Fin.ext hb, show f.imm = 0 from Fin.ext hn]
  · simp [OpcodeRow.valuesLegal, hwf]

theorem formAB_answers {mk : RegIdx → RegIdx → Instr} (hopc : f.opc = opc)
    (hm : ∀ a b, (mk a b).mnemonic = m := by intros; rfl)
    (he : ∀ a b, encode (mk a b) = packFields opc a b 0 := by intros; rfl)
    (hwf : ∀ cfg a b, (mk a b).wellFormed cfg =
      (decide (a.val < x.size cfg) && decide (b.val < y.size cfg) && true) := by intros; rfl) :
    OpcodeRow.Answers ⟨m, opc, some x, some y, none⟩ f (f.formAB mk) := by
  refine answers_ite (by simp [OpcodeRow.unusedZero]) fun hn => ⟨hm _ _, ?_, fun cfg => ?_⟩
  · rw [he, hopc, show f.imm = 0 from Fin.ext hn]
  · simp [OpcodeRow.valuesLegal, hwf]

theorem formAImm_answers {mk : RegIdx → Imm → Instr} (hopc : f.opc = opc)
    (hm : ∀ a n, (mk a n).mnemonic = m := by intros; rfl)
    (he : ∀ a n, encode (mk a n) = packFields opc a 0 n := by intros; rfl)
    (hwf : ∀ cfg a n, (mk a n).wellFormed cfg =
      (decide (a.val < x.size cfg) && k.legal n) := by intros; rfl) :
    OpcodeRow.Answers ⟨m, opc, some x, none, some k⟩ f (f.formAImm mk) := by
  refine answers_ite (by simp [OpcodeRow.unusedZero]) fun hb => ⟨hm _ _, ?_, fun cfg => ?_⟩
  · rw [he, hopc, show f.b = 0 from Fin.ext hb]
  · simp [OpcodeRow.valuesLegal, hwf, k.legal_iff_holds]

end

section
variable {r : OpcodeRow} {f : CommandFields} {w : Word} {i : Instr}

/-- At the opcode of a row the decoder's own branch answers for that row, by its form. -/
theorem decodeFields_answers (hr : r ∈ opcodeTable) (hopc : f.opc = r.opc) :
    r.Answers f (decodeFields f) := by
  simp only [opcodeTable, List.mem_append, List.mem_cons, List.not_mem_nil, or_false,
    or_assoc] at hr
  rcases hr with rfl | rfl | rfl | rfl | rfl | rfl | rfl | rfl | rfl | rfl | rfl | rfl | rfl | rfl |
    rfl | rfl | rfl | rfl | rfl | rfl | rfl | rfl | rfl | rfl | rfl | rfl | rfl | rfl | rfl | rfl |
    rfl | rfl | rfl | rfl
  all_goals simp only [decodeFields, hopc]
  exacts [formNone_answers hopc, formAImm_answers hopc, formA_answers hopc,
    formA_answers hopc, formAB_answers hopc, formNone_answers hopc, formNone_answers hopc,
    formA_answers hopc, formNone_answers hopc, formNone_answers hopc, formNone_answers hopc,
    formAImm_answers hopc, formAImm_answers hopc, formAImm_answers hopc, formA_answers hopc,
    formAB_answers hopc, formAImm_answers hopc, formA_answers hopc, formA_answers hopc,
    formA_answers hopc, formA_answers hopc, formA_answers hopc, formA_answers hopc,
    formNone_answers hopc, formA_answers hopc, formAImm_answers hopc, formNone_answers hopc,
    formNone_answers hopc, formNone_answers hopc, formAImm_answers hopc,
    formAImm_answers hopc, formAImm_answers hopc, formAB_answers hopc, formA_answers hopc]

/-- What the decoder accepts has the opcode of a row: check (2). -/
theorem exists_row_of_decodeFields (h : decodeFields f = .ok i) :
    ∃ r ∈ opcodeTable, f.opc = r.opc := by
  suffices f.opc ∈ opcodeTable.map OpcodeRow.opc by simpa [eq_comm] using this
  unfold decodeFields at h
  split at h
  case h_35 => cases h
  all_goals
    rename_i hopc
    rw [hopc]
    decide

theorem decode_of_selects (hr : r ∈ opcodeTable) (h : r.selects (commandFields w)) :
    ∃ i, decode w = .ok i ∧ r.Reads (commandFields w) i := by
  obtain ⟨hrsv, hopc, hunused⟩ := h
  rcases decodeFields_answers hr hopc with ⟨-, i, hi, hreads⟩ | ⟨hne, -⟩
  · exact ⟨i, (if_pos hrsv).trans hi, hreads⟩
  · exact absurd hunused hne

theorem selects_of_decode (h : decode w = .ok i) :
    ∃ r ∈ opcodeTable, r.selects (commandFields w) ∧ r.Reads (commandFields w) i := by
  obtain ⟨hrsv, h⟩ : (commandFields w).rsv = 0 ∧ decodeFields (commandFields w) = .ok i := by
    simpa [decode, decodeChecked, ite_eq_iff] using h
  obtain ⟨r, hr, hopc⟩ := exists_row_of_decodeFields h
  rcases decodeFields_answers hr hopc with ⟨hunused, j, hj, hreads⟩ | ⟨-, herr⟩
  · obtain rfl : j = i := Except.ok.inj (hj.symm.trans h)
    exact ⟨r, hr, ⟨hrsv, hopc, hunused⟩, hreads⟩
  · cases herr.symm.trans h

theorem encode_of_decode (h : decode w = .ok i) : encode i = w := by
  obtain ⟨r, -, ⟨hrsv, -, -⟩, hreads⟩ := selects_of_decode h
  exact hreads.word.trans (packFields_commandFields hrsv)

/-- The mnemonics of R84 are different, so a mnemonic names one row. -/
theorem row_eq_of_mnemonic_eq {r' : OpcodeRow} (hr : r ∈ opcodeTable) (hr' : r' ∈ opcodeTable)
    (h : r.mnemonic = r'.mnemonic) : r = r' :=
  List.inj_on_of_nodup_map (f := OpcodeRow.mnemonic) (by simp [opcodeTable]) hr hr' h

theorem exists_decode_mnemonic_iff (hr : r ∈ opcodeTable) :
    (∃ i, decode w = .ok i ∧ i.mnemonic = r.mnemonic) ↔ r.selects (commandFields w) := by
  constructor
  · rintro ⟨i, hi, hmn⟩
    obtain ⟨r', hr', hsel, hreads⟩ := selects_of_decode hi
    rwa [row_eq_of_mnemonic_eq hr hr' (hmn.symm.trans hreads.mnemonic)]
  · intro h
    obtain ⟨i, hi, hreads⟩ := decode_of_selects hr h
    exact ⟨i, hi, hreads.mnemonic⟩

theorem exists_decode_wellFormed_iff {cfg : Config} :
    (∃ i, decode w = .ok i ∧ i.wellFormed cfg = true) ↔
      ∃ r ∈ opcodeTable, r.selects (commandFields w) ∧ r.valuesLegal cfg (commandFields w) := by
  constructor
  · rintro ⟨i, hi, hwf⟩
    obtain ⟨r, hr, hsel, hreads⟩ := selects_of_decode hi
    exact ⟨r, hr, hsel, (hreads.wellFormed cfg).1 hwf⟩
  · rintro ⟨r, hr, hsel, hlegal⟩
    obtain ⟨i, hi, hreads⟩ := decode_of_selects hr hsel
    exact ⟨i, hi, (hreads.wellFormed cfg).2 hlegal⟩

theorem passesDecodeChecks_iff {cfg : Config} :
    passesDecodeChecks cfg w ↔
      ∃ r ∈ opcodeTable, r.selects (commandFields w) ∧ r.valuesLegal cfg (commandFields w) := by
  simp only [passesDecodeChecks, OpcodeRow.selects, OpcodeRow.unusedZero, OpcodeRow.valuesLegal,
    commandFields_opc, commandFields_a, commandFields_b, commandFields_imm, commandFields_rsv,
    and_assoc]
  exact ⟨fun ⟨hrsv, r, hr, h⟩ => ⟨r, hr, hrsv, h⟩, fun ⟨r, hr, hrsv, h⟩ => ⟨hrsv, r, hr, h⟩⟩

end

/-! ### The obligations -/

/-- Settles O4: the decoder runs at the opcode of each instruction's word. -/
theorem decodeOfEncodeIsTheInstruction : Obligations.DecodeOfEncodeIsTheInstruction :=
  decode_encode

/-- Settles O5: the row that the word selects has the instruction with the word's own fields. -/
theorem encodeOfDecodeIsTheWord : Obligations.EncodeOfDecodeIsTheWord :=
  fun _ _ => encode_of_decode

/-- Settles O7: both sides say that a row selects the word's fields and their values are legal. -/
theorem legalWordsAreThoseThatPassTheChecks : Obligations.LegalWordsAreThoseThatPassTheChecks :=
  fun _ _ => exists_decode_wellFormed_iff.trans passesDecodeChecks_iff.symm

/-- Settles O9: nine words are those of their instructions, and three fail a check. -/
theorem listedWordsDecodeAsListed : Obligations.ListedWordsDecodeAsListed :=
  ⟨decode_encode .nop, decode_encode (.bfNew 3 16), decode_encode (.fbAppf 0),
    decode_encode (.hdrCopy 2 1), decode_encode (.hdrInit 0 2), decode_encode (.arpParse 1),
    decode_encode (.faGet 0 3), decode_encode (.qSet 0 4), decode_encode (.qMatch 1 2),
    rfl, rfl, rfl⟩

end Sys2Proof
end

section
/-! PROOFS. A word decodes to a row's instruction exactly when the row's match and mask say so
(30_encoding.md R85). -/

namespace Sys2Proof

/-- The word with ones in the n bits from bit lo up. -/
def onesAt (lo n : Nat) : Word := BitVec.ofNat 64 ((2 ^ n - 1) <<< lo)

section
variable {r : OpcodeRow} {w : Word} {lo n : Nat}

/-- A word under a mask of ones, as the number in those bits. -/
theorem toNat_and_onesAt (h : lo + n ≤ 64) :
    (w &&& onesAt lo n).toNat = (w.toNat / 2 ^ lo % 2 ^ n) <<< lo := by
  refine Nat.eq_of_testBit_eq fun j => ?_
  rw [BitVec.testBit_toNat, BitVec.getLsbD_and, onesAt, BitVec.getLsbD_ofNat, BitVec.getLsbD,
    Nat.testBit_shiftLeft, Nat.testBit_shiftLeft, Nat.testBit_two_pow_sub_one,
    Nat.testBit_mod_two_pow, Nat.testBit_div_two_pow]
  by_cases hj : lo ≤ j ∧ j - lo < n
  · obtain ⟨hlo, hn⟩ := hj
    simp [hlo, hn, show j < 64 by omega]
  · grind

theorem and_onesAt_eq_zero_iff (h : lo + n ≤ 64) :
    w &&& onesAt lo n = 0#64 ↔ w.toNat / 2 ^ lo % 2 ^ n = 0 := by
  rw [← BitVec.toNat_inj, toNat_and_onesAt h, Nat.shiftLeft_eq]
  simp

/-- The lowest 8 bits of a word, where a match word has its OPC. -/
theorem and_onesAt_low_eq_iff {c : Nat} (hc : c < 256) :
    w &&& onesAt 0 8 = BitVec.ofNat 64 c ↔ w.toNat % 2 ^ 8 = c := by
  rw [← BitVec.toNat_inj, toNat_and_onesAt (by decide), BitVec.toNat_ofNat, Nat.shiftLeft_zero]
  omega

/-- Further ones in a mask, outside those over which c lies, say also that the word is 0 there. -/
theorem and_or_eq_iff {m1 m2 c : Word} (hc : c &&& m1 = c) (hm : m1 &&& m2 = 0#64) :
    w &&& (m1 ||| m2) = c ↔ w &&& m1 = c ∧ w &&& m2 = 0#64 := by
  have hc2 : c &&& m2 = 0#64 := by rw [← hc, BitVec.and_assoc, hm, BitVec.and_zero]
  constructor
  · intro h
    have part {m : Word} (h' : (m1 ||| m2) &&& m = m) : w &&& m = c &&& m := by
      rw [← h, BitVec.and_assoc, h']
    exact ⟨(part (by grind)).trans hc, (part (by grind)).trans hc2⟩
  · rintro ⟨h, h'⟩
    rw [BitVec.and_or_distrib_left, h, h', BitVec.or_zero]

theorem and_ite_eq_zero_iff {P : Prop} [Decidable P] {m : Word} :
    w &&& (if P then m else 0#64) = 0#64 ↔ (P → w &&& m = 0#64) := by
  split <;> simp [*]

/-- The opcodes of R84 are 8-bit numbers. -/
theorem row_opc_lt (hr : r ∈ opcodeTable) : r.opc < 256 := by
  revert r
  decide

/-- Match and mask say what the row asks of the fields: the mask has ones over OPC, RSV and every
unused field, and the match is 0 beyond OPC. -/
theorem and_mask_eq_match_iff (hopc : r.opc < 256) :
    w &&& (0xFFFFFFFFFF0000FF#64 ||| (if r.a = none then 0xF00#64 else 0#64) |||
      (if r.b = none then 0xF000#64 else 0#64) |||
      (if r.imm = none then 0xFF0000#64 else 0#64)) = BitVec.ofNat 64 r.opc ↔
    r.selects (commandFields w) := by
  have hfixed : 0xFFFFFFFFFF0000FF#64 = onesAt 0 8 ||| onesAt 24 40 := by decide
  have hcover : BitVec.ofNat 64 r.opc &&& onesAt 0 8 = BitVec.ofNat 64 r.opc := by
    rw [and_onesAt_low_eq_iff hopc, BitVec.toNat_ofNat]
    omega
  have hrsv : w.toNat / 2 ^ 24 % 2 ^ 40 = w.toNat / 2 ^ 24 := by omega
  rw [hfixed, BitVec.or_assoc, BitVec.or_assoc, BitVec.or_assoc,
    and_or_eq_iff hcover (by split_ifs <;> decide)]
  simp only [BitVec.and_or_distrib_left, BitVec.or_eq_zero_iff, and_ite_eq_zero_iff]
  rw [show 0xF00#64 = onesAt 8 4 by decide, show 0xF000#64 = onesAt 12 4 by decide,
    show 0xFF0000#64 = onesAt 16 8 by decide, and_onesAt_low_eq_iff hopc,
    and_onesAt_eq_zero_iff (by decide), and_onesAt_eq_zero_iff (by decide),
    and_onesAt_eq_zero_iff (by decide), and_onesAt_eq_zero_iff (by decide), hrsv,
    ← commandFields_opc, ← commandFields_a, ← commandFields_b, ← commandFields_imm,
    ← commandFields_rsv]
  exact and_left_comm

end

/-- Settles O6: both sides say that the row selects the word's fields. -/
theorem matchAndMaskSelectTheRow : Obligations.MatchAndMaskSelectTheRow :=
  fun _ _ hr => (exists_decode_mnemonic_iff hr).trans (and_mask_eq_match_iff (row_opc_lt hr)).symm

end Sys2Proof
end

section
/-! PROOFS. An illegal command word ends with IllegalCommand and changes nothing but STATUS
(30_encoding.md R83, R86). -/

namespace Sys2Proof.Machine

open Sys2Proof.Claims

/-- The end of a command in the words of the claims (R24). -/
theorem State.withStatus_eq_ended (s : State) (c : StatusCode) :
    s.withStatus c = ended s c.num := by
  have hstatus : statusAfter s.status c = (ended s c.num).status := by
    simp only [statusAfter, statusWord, statusErr, ended]
    cases s.status.getLsbD 8 <;> cases c <;> rfl
  rw [State.withStatus, hstatus]
  rfl

theorem State.raise_illegalCommand (s : State) :
    s.raise .illegalCommand = .next (ended s 0x10) :=
  congrArg Host.Outcome.next (s.withStatus_eq_ended .illegalCommand)

section
variable {s : State} {i : Instr} {w : Word}

/-- Every meaning begins with checks (4) and (5) of R83. -/
theorem exec_illegal (h : i.wellFormed s.cfg = false) : exec i s = s.raise .illegalCommand := by
  cases i <;> exact State.command_illegal h

theorem State.runCommand_illegal (h : ¬ passesDecodeChecks s.cfg w) :
    s.runCommand w = s.raise .illegalCommand := by
  cases hd : decode w with
  | error e => exact State.runCommand_error hd
  | ok i =>
    have hwf : i.wellFormed s.cfg = false := by
      rw [← Bool.not_eq_true]
      exact fun hwf => h (legalWordsAreThoseThatPassTheChecks s.cfg w |>.1 ⟨i, hd, hwf⟩)
    exact (State.runCommand_ok hd).trans (exec_illegal hwf)

end

/-- Settles O8: a word that fails a check has no instruction, or one that is not well formed. -/
theorem illegalWordRaisesIllegalCommandOnly : Obligations.IllegalWordRaisesIllegalCommandOnly := by
  constructor
  · intro s w rest hp hw
    calc step s = ((s.setPending rest).setCmd w).runCommand w := step_writeReg (r := .cmd) hp
      _ = ((s.setPending rest).setCmd w).raise .illegalCommand := State.runCommand_illegal hw
      _ = .next (ended { s with pending := rest, cmd := w } 0x10) := State.raise_illegalCommand _
  · exact fun s i h => (exec_illegal h).trans s.raise_illegalCommand

end Sys2Proof.Machine
end

section
/-! PROOFS. What a command is when its checks are known: its end in the words of the claims, a
BitField operand case by case, and the BitField commands, which construct, decode and compare
(40_bitfield.md R100 to R105). -/

namespace Sys2Proof.Machine

open Sys2Proof.Claims

/-! ### The end of a command, in the words of the claims -/

theorem State.done_eq_ended (s : State) : s.done = .next (ended s 0) :=
  congrArg Host.Outcome.next (s.withStatus_eq_ended .ok)

theorem State.raise_eq_ended (s : State) (c : StatusCode) : s.raise c = .next (ended s c.num) :=
  congrArg Host.Outcome.next (s.withStatus_eq_ended c)

theorem code_ended (s : State) (c : StatusCode) : (ended s c.num).status.toNat % 256 = c.num := by
  rw [← State.withStatus_eq_ended]
  exact statusCode_statusAfter s.status c

section
variable {s : State} {i bd bs ba bb : RegIdx} {b : BitField} {width : Imm}

/-! ### A BitField operand -/

section
variable {k : BitField → StepResult}

theorem State.withBfRaw_of_none (h : s.bfReg i = none) :
    s.withBfRaw i k = s.raise .notInitialised := by simp [State.withBfRaw, h]

theorem State.withBfRaw_of_some (h : s.bfReg i = some b) : s.withBfRaw i k = k b := by
  simp [State.withBfRaw, h]

theorem State.withBf_of_none (h : s.bfReg i = none) :
    s.withBf i k = s.raise .notInitialised := State.withBfRaw_of_none h

theorem State.withBf_of_not_fits (h : s.bfReg i = some b) (hv : 2 ^ b.width ≤ b.value) :
    s.withBf i k = s.raise .lengthError := (State.withBfRaw_of_some h).trans (if_pos hv)

theorem State.withBf_of_fits (h : s.bfReg i = some b) (hv : b.value < 2 ^ b.width) :
    s.withBf i k = k b := (State.withBfRaw_of_some h).trans (if_neg (Nat.not_le.2 hv))

end

/-! ### The commands on registers of the file -/

/-- Checks (4) and (5) of R83, each for itself. -/
theorem State.command_of_legal {j : Instr} {k : StepResult} (hidx : j.indicesLegal s.cfg = true)
    (himm : j.immLegal = true) : s.command j k = k :=
  State.command_legal (Bool.and_eq_true_iff.2 ⟨hidx, himm⟩)

theorem exec_bfNew (hbd : bd.val < s.cfg.nbf) :
    exec (.bfNew bd width) s =
      if legalBitField width.val s.arg0.toNat then (s.setBf bd ⟨width.val, s.arg0.toNat⟩).done
      else s.raise .lengthError :=
  State.command_of_legal (decide_eq_true hbd) rfl

theorem exec_bfBits (hbs : bs.val < s.cfg.nbf) :
    exec (.bfBits bs) s =
      s.withBf bs fun b => ((s.setRes0 (valOf (bitsOf b.value b.width))).setRes1 b.width).done :=
  State.command_of_legal (decide_eq_true hbs) rfl

theorem exec_bfVal (hbs : bs.val < s.cfg.nbf) :
    exec (.bfVal bs) s = s.withBf bs fun b => (s.setRes0 (valOf (bitsOf b.value b.width))).done :=
  State.command_of_legal (decide_eq_true hbs) rfl

theorem exec_bfEq (hba : ba.val < s.cfg.nbf) (hbb : bb.val < s.cfg.nbf) :
    exec (.bfEq ba bb) s =
      s.withBfRaw ba fun x => s.withBfRaw bb fun y =>
        (s.setRes0 (if x.value = y.value then 1 else 0)).done :=
  State.command_of_legal (Bool.and_eq_true_iff.2 ⟨decide_eq_true hba, decide_eq_true hbb⟩) rfl

end

/-! ### What the commands give -/

/-- Settles O28: the legality test of R100, both ways. -/
theorem bfNewBuildsLegalBitFields : Obligations.BfNewBuildsLegalBitFields := by
  intro s bd width hbd
  rw [exec_bfNew hbd]
  constructor
  · intro hlow hhigh hfits
    rw [if_pos ⟨hlow, hhigh, hfits⟩, State.done_eq_ended]
    rfl
  · intro hillegal
    have hnot : ¬ legalBitField width.val s.arg0.toNat := fun ⟨hlow, hhigh, hfits⟩ => by omega
    rw [if_neg hnot]
    exact s.raise_eq_ended .lengthError

/-- Settles O29: by what the register holds; the padded bits of a value that fits have that value. -/
theorem bfBitsAndBfValGiveTheValue : Obligations.BfBitsAndBfValGiveTheValue := by
  intro s bs hbs
  rw [exec_bfBits hbs, exec_bfVal hbs]
  constructor
  · intro hempty
    have hreg : s.bfReg bs = none := regRead_of_getElem? hempty
    rw [State.withBf_of_none hreg, State.withBf_of_none hreg]
    exact ⟨s.raise_eq_ended .notInitialised, s.raise_eq_ended .notInitialised⟩
  · intro w v hheld
    have hreg : s.bfReg bs = some ⟨w, v⟩ := regRead_of_getElem? hheld
    constructor
    · intro hlong
      rw [State.withBf_of_not_fits hreg hlong, State.withBf_of_not_fits hreg hlong]
      exact ⟨s.raise_eq_ended .lengthError, s.raise_eq_ended .lengthError⟩
    · intro hfits
      rw [State.withBf_of_fits hreg hfits, State.withBf_of_fits hreg hfits,
        valOf_bitsOf_of_lt hfits]
      exact ⟨State.done_eq_ended _, State.done_eq_ended _⟩

/-- Settles O30: by what the two registers hold, the first one first. -/
theorem bfEqComparesValuesOnly : Obligations.BfEqComparesValuesOnly := by
  intro s ba bb hba hbb
  rw [exec_bfEq hba hbb]
  constructor
  · rintro (hempty | ⟨⟨x, hx⟩, hempty⟩)
    · rw [State.withBfRaw_of_none (regRead_of_getElem? hempty)]
      exact s.raise_eq_ended .notInitialised
    · rw [State.withBfRaw_of_some (regRead_of_getElem? hx),
        State.withBfRaw_of_none (regRead_of_getElem? hempty)]
      exact s.raise_eq_ended .notInitialised
  · intro wa va wb vb hx hy
    rw [State.withBfRaw_of_some (regRead_of_getElem? hx),
      State.withBfRaw_of_some (regRead_of_getElem? hy), State.done_eq_ended]
    by_cases hv : va = vb
    · simp only [if_pos hv]
      rfl
    · simp only [if_neg hv]
      rfl

/-! ### The round trip as a host script (R105) -/

section
variable {s : State} {rest : List HostAccess}

theorem step_scriptCmd {i : Instr} (h : s.pending = scriptCmd i ++ rest) :
    step s = exec i { s with pending := rest, cmd := encode i } :=
  stepRunsTheDecodedCommand s _ rest i h (decode_encode i)

theorem core_run_three {t u v : State} (hs : step s = .next t) (ht : step t = .next u)
    (hu : step u = .next v) : core.run 3 s = .next v := by
  simp [Host.Core.run, core, hs, ht, hu]

theorem step_bfNew {bd : RegIdx} {width : Imm}
    (hp : s.pending = scriptCmd (.bfNew bd width) ++ rest) (hbd : bd.val < s.cfg.nbf)
    (hlegal : legalBitField width.val s.arg0.toNat) :
    step s = .next (ended { s with
      pending := rest, cmd := encode (.bfNew bd width),
      bf := s.bf.set bd.val (some ⟨width.val, s.arg0.toNat⟩) } 0) := by
  obtain ⟨hlow, hhigh, hfits⟩ := hlegal
  have hnew := (bfNewBuildsLegalBitFields { s with
    pending := rest, cmd := encode (.bfNew bd width) } bd width hbd).1 hlow hhigh hfits
  exact (step_scriptCmd hp).trans hnew

theorem step_bfVal {bs : RegIdx} {w v : Nat}
    (hp : s.pending = scriptCmd (.bfVal bs) ++ rest) (hbs : bs.val < s.cfg.nbf)
    (hheld : s.bf[bs.val]? = some (some ⟨w, v⟩)) (hfits : v < 2 ^ w) :
    step s = .next (ended { s with
      pending := rest, cmd := encode (.bfVal bs), res0 := BitVec.ofNat 64 v } 0) := by
  obtain ⟨-, hval⟩ := ((bfBitsAndBfValGiveTheValue { s with
    pending := rest, cmd := encode (.bfVal bs) } bs hbs).2 w v hheld).2 hfits
  exact (step_scriptCmd hp).trans hval

end

/-- Settles O31: the three steps; BF.VAL decodes the BitField that BF.NEW has put into b0. -/
theorem bitFieldRoundTripAsAScript : Obligations.BitFieldRoundTripAsAScript := by
  intro s width value rest hinv hlow hhigh hfits hp
  have hnbf : (0 : RegIdx).val < s.cfg.nbf := hinv.params.1.1
  have hheld : (regWrite s.bf 0 ⟨width.val, value.toNat⟩)[(0 : RegIdx).val]? =
      some (some ⟨width.val, value.toNat⟩) := getElem?_regWrite_self (hinv.bfSize.symm ▸ hnbf)
  have hvalue : BitVec.ofNat 64 value.toNat = value :=
    (BitVec.ofNat_toNat 64 value).trans (BitVec.setWidth_eq value)
  have hrun := core_run_three (step_writeReg (r := .arg0) hp)
    (step_bfNew rfl hnbf ⟨hlow, hhigh, hfits⟩) (step_bfVal rfl hnbf hheld hfits)
  exact ⟨_, hrun, code_ended _ .ok, hvalue, rfl⟩

end Sys2Proof.Machine
end

section
/-! PROOFS. Ranges of a bit sequence bit by bit, and what MEM holds after the bytes of a bit
sequence are stored (00_scope.md R8, R9; 20_memory.md R61 to R63). -/

namespace Sys2Proof.Machine

open Sys2Proof.Claims

/-! ### Bit sequences -/

/-- Position i of a bit sequence is bit length-1-i of its value. -/
theorem getElem?_eq_testBit_valOf {S : List Bool} {i : Nat} (h : i < S.length) :
    S[i]? = some ((valOf S).testBit (S.length - 1 - i)) := by
  rw [← getElem?_bitsOf (valOf S) h, bitsOf_valOf]

theorem testBit_valOf_of_length_le {S : List Bool} {j : Nat} (h : S.length ≤ j) :
    (valOf S).testBit j = false :=
  Nat.testBit_lt_two_pow ((valOf_lt S).trans_le (Nat.pow_le_pow_right two_pos h))

theorem length_sliceBits_of_le {S : List Bool} {a b : Nat} (hb : b ≤ S.length) :
    (sliceBits S a b).length = b - a := by
  rw [length_sliceBits]; omega

theorem getElem?_sliceBits {S : List Bool} {a b i : Nat} (h : i < b - a) :
    (sliceBits S a b)[i]? = S[a + i]? := by
  rw [sliceBits, List.getElem?_take_of_lt h, List.getElem?_drop]

/-- Appending and slicing the appended range (R127). -/
theorem sliceBits_append_right (S T : List Bool) :
    sliceBits (S ++ T) S.length (S.length + T.length) = T := by
  simp [sliceBits]

/-- By induction on the bytes: a position is in the first byte or 8 further on in the others. -/
theorem getElem?_bytesToBits (B : List Byte) (p : Nat) :
    (bytesToBits B)[p]? = B[p / 8]?.map fun b => b.getLsbD (7 - p % 8) := by
  induction B generalizing p with
  | nil => rfl
  | cons b B ih =>
    rw [bytesToBits_cons]
    rcases lt_or_ge p 8 with h | h
    · rw [List.getElem?_append_left (by rwa [length_bitsOf]), getElem?_bitsOf _ h,
        Nat.div_eq_of_lt h, Nat.mod_eq_of_lt h]
      rfl
    · obtain ⟨q, rfl⟩ := Nat.exists_eq_add_of_le' h
      rw [List.getElem?_append_right (by rwa [length_bitsOf]), length_bitsOf,
        Nat.add_sub_cancel, ih, Nat.add_div_right q (by decide), Nat.add_mod_right,
        List.getElem?_cons_succ]

/-! ### MEM -/

theorem readsAs_memBytes (s : State) (a n : Nat) : readsAs s a n (s.memBytes a n) :=
  ⟨s.length_memBytes a n, fun _ _ hk hb => by
    rw [State.getElem?_memBytes hk, State.memByte_of_read? hb]⟩

theorem storedOnly_writeBytes (m : Memory) (a : Nat) (B : List Byte) :
    storedOnly m (Memory.writeBytes m a B) a B.length :=
  ⟨fun _ hk => by rw [Memory.read?_writeBytes_inside hk]; rfl,
    fun _ => Memory.read?_writeBytes_outside⟩

theorem wireBit_writeBytes (m : Memory) (a : Nat) {B : List Byte} {p : Nat}
    (h : p < 8 * B.length) : wireBit (Memory.writeBytes m a B) a p = (bytesToBits B)[p]? := by
  have hbyte : p / 8 < B.length := by omega
  rw [wireBit, Memory.read?_writeBytes_inside hbyte, getElem?_bytesToBits,
    List.getElem?_eq_getElem hbyte]

section
variable {S : List Bool} {n : Nat}

theorem storedOnly_bitsToBytes (m : Memory) (a : Nat) (hS : S.length = 8 * n) :
    storedOnly m (Memory.writeBytes m a (bitsToBytes S)) a n := by
  have hlen : (bitsToBytes S).length = n := by rw [length_bitsToBytes]; omega
  simpa only [hlen] using storedOnly_writeBytes m a (bitsToBytes S)

theorem wireBit_bitsToBytes (m : Memory) (a : Nat) (hS : S.length = 8 * n) {p : Nat}
    (hp : p < 8 * n) : wireBit (Memory.writeBytes m a (bitsToBytes S)) a p = S[p]? := by
  rw [wireBit_writeBytes m a (by rw [length_bitsToBytes]; omega),
    bytesToBits_bitsToBytes_of_length hS]

end

end Sys2Proof.Machine
end

section
/-! PROOFS. The commands without operands and the FrameBuffer commands (41_framebuffer.md R120 to
R127; 44_assembly.md R180; 46_system.md R220). -/

namespace Sys2Proof.Machine

open Sys2Proof.Claims

/-! ### Range checks whose outcome is known -/

section
variable {s : State} {k : StepResult} {n off a b : Nat}

theorem State.withRange_of_le (h : off + n ≤ s.cfg.memSize) : s.withRange off n k = k := if_pos h

theorem State.withRange_of_lt (h : s.cfg.memSize < off + n) :
    s.withRange off n k = .next (ended s 0x13) :=
  (if_neg (Nat.not_le.2 h)).trans (s.raise_eq_ended .outOfRange)

theorem State.withRoom_of_le (h : s.fb.length + n ≤ s.cfg.fbCapBits) : s.withRoom n k = k :=
  if_pos h

theorem State.withRoom_of_lt (h : s.cfg.fbCapBits < s.fb.length + n) :
    s.withRoom n k = .next (ended s 0x14) :=
  (if_neg (Nat.not_le.2 h)).trans (s.raise_eq_ended .overflow)

theorem State.withFbRange_of_le (hab : a ≤ b) (hb : b ≤ s.fb.length) :
    s.withFbRange a b k = k := if_pos ⟨hab, hb⟩

theorem State.withFbRange_of_not (h : ¬ (a ≤ b ∧ b ≤ s.fb.length)) :
    s.withFbRange a b k = .next (ended s 0x13) :=
  (if_neg h).trans (s.raise_eq_ended .outOfRange)

theorem State.withWholeBytes_of_eq (h : n % 8 = 0) : s.withWholeBytes n k = k := if_pos h

theorem State.withWholeBytes_of_ne (h : n % 8 ≠ 0) :
    s.withWholeBytes n k = .next (ended s 0x02) :=
  (if_neg h).trans (s.raise_eq_ended .alignmentError)

end

/-! ### The commands on instances where their indices are legal -/

section
variable {s : State} {bs : RegIdx}

theorem exec_fbAppb (s : State) :
    exec .fbAppb s =
      s.withRange s.arg0.toNat s.arg1.toNat (s.withRoom (8 * s.arg1.toNat)
        (s.drawn.fbAppend (bytesToBits (s.memBytes s.arg0.toNat s.arg1.toNat))).done) :=
  State.command_of_legal (s := s) (j := .fbAppb) rfl rfl

theorem exec_fbAppf (hbs : bs.val < s.cfg.nbf) :
    exec (.fbAppf bs) s =
      s.withBf bs fun b => s.withRoom b.width (s.fbAppend (bitsOf b.value b.width)).done :=
  State.command_of_legal (decide_eq_true hbs) rfl

theorem exec_fbSlb (s : State) :
    exec .fbSlb s =
      s.withFbRange s.arg0.toNat s.arg1.toNat
        (if s.arg1.toNat - s.arg0.toNat > 64 then s.raise .outOfRange
        else ((s.setRes0 (valOf (sliceBits s.fb s.arg0.toNat s.arg1.toNat))).setRes1
          (s.arg1.toNat - s.arg0.toNat)).done) :=
  State.command_of_legal (s := s) (j := .fbSlb) rfl rfl

theorem exec_fbSly (s : State) :
    exec .fbSly s =
      s.withFbRange s.arg0.toNat s.arg1.toNat
        (s.withWholeBytes (s.arg1.toNat - s.arg0.toNat)
          (s.withRange s.arg2.toNat ((s.arg1.toNat - s.arg0.toNat) / 8)
            ((s.memWrite s.arg2.toNat
              (bitsToBytes (sliceBits s.fb s.arg0.toNat s.arg1.toNat))).setRes0
                ((s.arg1.toNat - s.arg0.toNat) / 8)).done)) :=
  State.command_of_legal (s := s) (j := .fbSly) rfl rfl

theorem exec_fbTob (s : State) :
    exec .fbTob s =
      s.withWholeBytes s.fb.length (s.withRange s.arg0.toNat (s.fb.length / 8)
        ((s.memWrite s.arg0.toNat (bitsToBytes s.fb)).setRes0 (s.fb.length / 8)).done) :=
  State.command_of_legal (s := s) (j := .fbTob) rfl rfl

/-- FB.APPF when every check passes: the padded bits are appended. -/
theorem exec_fbAppf_of_fits {w v : Nat} (hbs : bs.val < s.cfg.nbf)
    (hheld : s.bf[bs.val]? = some (some ⟨w, v⟩)) (hfits : v < 2 ^ w)
    (hroom : s.fb.length + w ≤ s.cfg.fbCapBits) :
    exec (.fbAppf bs) s = .next (ended { s with fb := s.fb ++ bitsOf v w } 0) := by
  rw [exec_fbAppf hbs, State.withBf_of_fits (regRead_of_getElem? hheld) hfits,
    State.withRoom_of_le hroom, State.done_eq_ended]
  rfl

/-- FB.SLB when every check passes: the value of the range and its length. -/
theorem exec_fbSlb_of_range (hab : s.arg0.toNat ≤ s.arg1.toNat) (hb : s.arg1.toNat ≤ s.fb.length)
    (hlen : s.arg1.toNat - s.arg0.toNat ≤ 64) :
    exec .fbSlb s = .next (ended { s with
      res0 := BitVec.ofNat 64 (valOf (sliceBits s.fb s.arg0.toNat s.arg1.toNat)),
      res1 := BitVec.ofNat 64 (s.arg1.toNat - s.arg0.toNat) } 0) := by
  rw [exec_fbSlb, State.withFbRange_of_le hab hb, if_neg (Nat.not_lt.2 hlen), State.done_eq_ended]
  rfl

/-- FB.SLB of the bits that FB ends with (R127). -/
theorem exec_fbSlb_of_append {S T : List Bool} (hfb : s.fb = S ++ T)
    (hstart : s.arg0.toNat = S.length) (hend : s.arg1.toNat = S.length + T.length)
    (hT : T.length ≤ 64) :
    exec .fbSlb s = .next (ended { s with
      res0 := BitVec.ofNat 64 (valOf T), res1 := BitVec.ofNat 64 T.length } 0) := by
  rw [exec_fbSlb_of_range (by omega) (by rw [hfb, List.length_append, hend]) (by omega), hfb,
    hstart, hend, sliceBits_append_right, Nat.add_sub_cancel_left]

end

/-! ### What the commands give -/

/-- Settles O27: their checks always pass, and they then end with their one update. -/
theorem nopFbClrAndFaNewComplete : Obligations.NopFbClrAndFaNewComplete := fun s =>
  ⟨(State.command_of_legal (s := s) (j := .nop) rfl rfl).trans s.done_eq_ended,
    (State.command_of_legal (s := s) (j := .fbClr) rfl rfl).trans (State.done_eq_ended _),
    (State.command_of_legal (s := s) (j := .faNew) rfl rfl).trans (State.done_eq_ended _)⟩

/-- Settles O32: check by check; the bytes appended are those of one read of MEM. -/
theorem fbAppbAppendsTheBytes : Obligations.FbAppbAppendsTheBytes := by
  intro s
  rw [exec_fbAppb]
  constructor
  · exact State.withRange_of_lt
  · intro hrange
    rw [State.withRange_of_le hrange]
    constructor
    · exact State.withRoom_of_lt
    · intro hroom
      rw [State.withRoom_of_le hroom]
      exact ⟨_, _, readsAs_memBytes s _ _, State.done_eq_ended _⟩

/-- Settles O33: by what the register holds, then by the room left in FB. -/
theorem fbAppfAppendsThePaddedBits : Obligations.FbAppfAppendsThePaddedBits := by
  intro s bs hbs
  constructor
  · intro hempty
    rw [exec_fbAppf hbs, State.withBf_of_none (regRead_of_getElem? hempty)]
    exact s.raise_eq_ended .notInitialised
  · intro w v hheld
    have hreg : s.bfReg bs = some ⟨w, v⟩ := regRead_of_getElem? hheld
    refine ⟨fun hlong => ?_, fun hfits hfull => ?_, fun hfits hroom => ?_⟩
    · rw [exec_fbAppf hbs, State.withBf_of_not_fits hreg hlong]
      exact s.raise_eq_ended .lengthError
    · rw [exec_fbAppf hbs, State.withBf_of_fits hreg hfits]
      exact State.withRoom_of_lt hfull
    · exact ⟨bitsOf v w, length_bitsOf v w, fun i => getElem?_bitsOf v,
        exec_fbAppf_of_fits hbs hheld hfits hroom⟩

/-- Settles O34: check by check; RES0 is the value of the range, whose bits are its positions. -/
theorem fbSlbReturnsTheBits : Obligations.FbSlbReturnsTheBits := by
  intro s
  constructor
  · intro hout
    rw [exec_fbSlb]
    exact State.withFbRange_of_not hout
  · intro hab hb
    constructor
    · intro hlong
      rw [exec_fbSlb, State.withFbRange_of_le hab hb, if_pos hlong]
      exact s.raise_eq_ended .outOfRange
    · intro hshort
      have hlen := length_sliceBits_of_le (a := s.arg0.toNat) hb
      have hres1 : BitVec.ofNat 64 (s.arg1.toNat - s.arg0.toNat) = s.arg1 - s.arg0 := by
        rw [← BitVec.toNat_sub_of_le hab, BitVec.ofNat_toNat, BitVec.setWidth_eq]
      refine ⟨_, hres1 ▸ exec_fbSlb_of_range hab hb hshort, fun i hi => ?_, fun j hj => ?_⟩
      · rw [← getElem?_sliceBits hi, getElem?_eq_testBit_valOf (by rwa [hlen]), hlen,
          BitVec.getLsbD_ofNat, decide_eq_true (by omega), Bool.true_and]
      · rw [BitVec.getLsbD_ofNat, testBit_valOf_of_length_le (by rwa [hlen]), Bool.and_false]

/-- Settles O35: check by check; the bytes stored are those of the range's bits. -/
theorem fbSlyStoresTheBytesOfTheRange : Obligations.FbSlyStoresTheBytesOfTheRange := by
  intro s
  rw [exec_fbSly]
  constructor
  · exact State.withFbRange_of_not
  · intro hab hb
    rw [State.withFbRange_of_le hab hb]
    constructor
    · exact State.withWholeBytes_of_ne
    · intro n hn
      have hbits : (sliceBits s.fb s.arg0.toNat s.arg1.toNat).length = 8 * n :=
        (length_sliceBits_of_le hb).trans hn
      rw [hn, State.withWholeBytes_of_eq (Nat.mul_mod_right 8 n),
        Nat.mul_div_cancel_left n (by decide)]
      constructor
      · exact State.withRange_of_lt
      · intro hrange
        rw [State.withRange_of_le hrange]
        refine ⟨_, State.done_eq_ended _, storedOnly_bitsToBytes _ _ hbits, fun p hp => ?_⟩
        exact (wireBit_bitsToBytes _ _ hbits hp).trans (getElem?_sliceBits (hn ▸ hp))

/-- Settles O36: check by check; the bytes stored are those of the buffer's bits. -/
theorem fbTobStoresTheWholeBuffer : Obligations.FbTobStoresTheWholeBuffer := by
  intro s
  rw [exec_fbTob]
  constructor
  · exact State.withWholeBytes_of_ne
  · intro n hn
    rw [hn, State.withWholeBytes_of_eq (Nat.mul_mod_right 8 n),
      Nat.mul_div_cancel_left n (by decide)]
    constructor
    · exact State.withRange_of_lt
    · intro hrange
      rw [State.withRange_of_le hrange]
      exact ⟨_, State.done_eq_ended _, storedOnly_bitsToBytes _ _ hn,
        fun p => wireBit_bitsToBytes _ _ hn⟩

/-- Settles O37: the range sliced is the one appended, and FB is far shorter than 2^64 bits. -/
theorem appendThenSliceIsTheField : Obligations.AppendThenSliceIsTheField := by
  intro s b w v hvalid hb hheld hpos hw hfits hroom
  obtain ⟨-, -, -, -, -, hcap⟩ := hvalid
  have hlen : (bitsOf v w).length = w := length_bitsOf v w
  have hword : v < 2 ^ 64 := hfits.trans_le (Nat.pow_le_pow_right two_pos hw)
  have hslice := exec_fbSlb_of_append (s := { ended { s with fb := s.fb ++ bitsOf v w } 0 with
      arg0 := BitVec.ofNat 64 s.fb.length, arg1 := BitVec.ofNat 64 (s.fb.length + w) }) rfl
    (Nat.mod_eq_of_lt (by omega)) (by rw [hlen]; exact Nat.mod_eq_of_lt (by omega)) (hlen.trans_le hw)
  rw [valOf_bitsOf_of_lt hfits, hlen] at hslice
  exact ⟨_, _, exec_fbAppf_of_fits hb hheld hfits hroom, hslice, code_ended _ .ok,
    Nat.mod_eq_of_lt hword, Nat.mod_eq_of_lt (by omega)⟩

end Sys2Proof.Machine
end

section
/-! PROOFS. The header layouts (42_headers.md R146), a header operand and a field of it case by case,
and the header register commands (R140 to R145). -/

namespace Sys2Proof.Machine

open Sys2Proof.Claims

/-! ### The layout tables (R33 to R35) -/

section
variable (fw : FlagsWidth) (t : Tag)

theorem fieldOffset_zero : fieldOffset fw t 0 = 0 := by cases t <;> rfl

/-- The two `flags` widths differ in one boundary, between ids 5 and 6 of the IPv4 table. -/
theorem fieldOffset_succ : ∀ id < nfields t - 1,
    fieldOffset fw t (id + 1) = fieldOffset fw t id + fieldWidth fw t id := by
  cases fw <;> cases t <;> decide

theorem fieldOffset_last_add_fieldWidth :
    fieldOffset fw t (nfields t - 1) + fieldWidth fw t (nfields t - 1) = 8 * headerSize t := by
  cases t <;> rfl

end

/-- Settles O3: the widths and sizes by tag; the tiling by the three lemmas on the offsets. -/
theorem fieldsTileTheHeader : Obligations.FieldsTileTheHeader := by
  intro fw t
  refine ⟨?widths, fieldOffset_zero fw t, fun id hid => ?next,
    fieldOffset_last_add_fieldWidth fw t, ?size⟩
  case widths => cases t <;> rfl
  case next => exact fieldOffset_succ fw t id (by omega)
  case size => cases t <;> rfl

/-! ### Header operands and their checks, when their outcome is known -/

section
variable {s : State} {i : RegIdx} {x : Header} {t : Tag} {id v : Nat} {imm : Imm} {k : StepResult}

section
variable {k : Header → StepResult}

theorem State.withH_of_empty (h : s.h[i.val]? = some none) :
    s.withH i k = .next (ended s 0x11) := by
  rw [State.withH, State.hReg, regRead_of_getElem? h]
  exact s.raise_eq_ended .notInitialised

theorem State.withH_of_held (h : s.h[i.val]? = some (some x)) : s.withH i k = k x := by
  rw [State.withH, State.hReg, regRead_of_getElem? h]

end

theorem State.withTag_of_tagOfCode {k : Tag → StepResult} (h : tagOfCode imm.val = some t) :
    s.withTag imm k = k t := by
  rw [State.withTag, h]

theorem State.withField_of_lt (h : id < nfields t) : s.withField t id k = k := if_pos h

theorem State.withField_of_le (h : nfields t ≤ id) : s.withField t id k = .next (ended s 0x12) :=
  (if_neg (Nat.not_lt.2 h)).trans (s.raise_eq_ended .badField)

theorem State.withFits_of_lt (h : v < 2 ^ fieldWidth s.cfg.flagsWidth t id) :
    s.withFits t id v k = k := if_pos h

theorem State.withFits_of_le (h : 2 ^ fieldWidth s.cfg.flagsWidth t id ≤ v) :
    s.withFits t id v k = .next (ended s 0x01) :=
  (if_neg (Nat.not_lt.2 h)).trans (s.raise_eq_ended .lengthError)

theorem State.withVariant_of_eq (h : x.tag = t) : s.withVariant x t k = k := if_pos h

theorem State.withVariant_of_ne (h : x.tag ≠ t) :
    s.withVariant x t k = .next (ended s 0x04) :=
  (if_neg h).trans (s.raise_eq_ended .unwrapHeaderError)

/-- Reading a tag code undoes writing it (R32). -/
theorem tagOfCode_eq_some_iff {n : Nat} : tagOfCode n = some t ↔ n = tagCode t := by
  constructor
  · intro h
    unfold tagOfCode at h
    split at h <;> cases h <;> rfl
  · rintro rfl
    cases t <;> rfl

/-- A tag code is a legal tag IMM: it passes check (5) of R83. -/
theorem legalTagImm_of_tagOfCode (h : tagOfCode imm.val = some t) : legalTagImm imm = true := by
  rw [legalTagImm, tagOfCode_eq_some_iff.1 h]
  cases t <;> rfl

end

/-! ### The commands on instances where their indices and tags are legal -/

section
variable {s : State} {hd hs : RegIdx} {tag field : Imm} {t : Tag}

/-- HDR.INIT: none of its checks is left (R140). -/
theorem exec_hdrInit (hhd : hd.val < s.cfg.nh) (htag : tagOfCode tag.val = some t) :
    exec (.hdrInit hd tag) s = .next (ended { s with
      h := s.h.set hd.val (some ⟨t, List.replicate (nfields t) 0⟩) } 0) :=
  calc exec (.hdrInit hd tag) s
      = s.withTag tag fun t => (s.setH hd ⟨t, List.replicate (nfields t) 0⟩).done :=
        State.command_of_legal (decide_eq_true hhd) (legalTagImm_of_tagOfCode htag)
    _ = (s.setH hd ⟨t, List.replicate (nfields t) 0⟩).done := State.withTag_of_tagOfCode htag
    _ = _ := State.done_eq_ended _

theorem exec_hdrSet (hhd : hd.val < s.cfg.nh) :
    exec (.hdrSet hd field) s =
      s.withH hd fun x => s.withField x.tag field.val (s.withFits x.tag field.val s.arg0.toNat
        (s.setH hd { x with fields := x.fields.set field.val s.arg0.toNat }).done) :=
  State.command_of_legal (decide_eq_true hhd) rfl

theorem exec_hdrGet (hhs : hs.val < s.cfg.nh) :
    exec (.hdrGet hs field) s =
      s.withH hs fun x =>
        s.withField x.tag field.val (s.setRes0 (x.fields.getD field.val 0)).done :=
  State.command_of_legal (decide_eq_true hhs) rfl

theorem exec_hdrTag (hhs : hs.val < s.cfg.nh) :
    exec (.hdrTag hs) s = (s.setRes0 ((s.hReg hs).elim 0 fun x => tagCode x.tag)).done := by
  refine (State.command_of_legal (s := s) (j := .hdrTag hs) (decide_eq_true hhs) rfl).trans ?_
  cases s.hReg hs <;> rfl

theorem exec_hdrCopy (hhd : hd.val < s.cfg.nh) (hhs : hs.val < s.cfg.nh) :
    exec (.hdrCopy hd hs) s = s.withH hs fun x => (s.setH hd x).done :=
  State.command_of_legal (Bool.and_eq_true_iff.2 ⟨decide_eq_true hhd, decide_eq_true hhs⟩) rfl

theorem exec_hdrUnwrap (hhs : hs.val < s.cfg.nh) (htag : tagOfCode tag.val = some t) :
    exec (.hdrUnwrap hs tag) s = s.withH hs fun x => s.withVariant x t s.done :=
  calc exec (.hdrUnwrap hs tag) s
      = s.withTag tag fun t => s.withH hs fun x => s.withVariant x t s.done :=
        State.command_of_legal (decide_eq_true hhs) (legalTagImm_of_tagOfCode htag)
    _ = _ := State.withTag_of_tagOfCode htag

end

/-! ### What the commands give -/

/-- Settles O38: HDR.INIT tag by tag, HDR.TAG by what the register holds. -/
theorem hdrInitGivesZerosAndHdrTagReadsTheTag :
    Obligations.HdrInitGivesZerosAndHdrTagReadsTheTag := by
  intro s r hr
  refine ⟨exec_hdrInit hr rfl, exec_hdrInit hr rfl, exec_hdrInit hr rfl, ?empty, ?held⟩
  case empty =>
    intro hempty
    rw [exec_hdrTag hr, State.hReg, regRead_of_getElem? hempty]
    exact State.done_eq_ended _
  case held =>
    intro x hheld
    rw [exec_hdrTag hr, State.hReg, regRead_of_getElem? hheld, State.done_eq_ended]
    obtain ⟨tag, -⟩ := x
    cases tag <;> rfl

/-- Settles O39: check by check, in the order of R141. -/
theorem hdrSetStoresOneField : Obligations.HdrSetStoresOneField := by
  intro s hd field hhd
  rw [exec_hdrSet hhd]
  constructor
  · exact State.withH_of_empty
  · intro x hheld
    rw [State.withH_of_held hheld]
    constructor
    · exact State.withField_of_le
    · intro hfield
      rw [State.withField_of_lt hfield]
      constructor
      · exact State.withFits_of_le
      · intro hfits
        rw [State.withFits_of_lt hfits]
        exact State.done_eq_ended _

/-- Settles O40: check by check, in the order of R142. -/
theorem hdrGetReadsOneField : Obligations.HdrGetReadsOneField := by
  intro s hs field hhs
  rw [exec_hdrGet hhs]
  constructor
  · exact State.withH_of_empty
  · intro x hheld
    rw [State.withH_of_held hheld]
    constructor
    · exact State.withField_of_le
    · intro v hfield hv
      rw [State.withField_of_lt hfield, List.getD_eq_getElem?_getD, hv]
      exact State.done_eq_ended _

/-- Settles O41: by what the source holds; the destination may be the same register. -/
theorem hdrCopyCopiesTheValue : Obligations.HdrCopyCopiesTheValue := by
  intro s hd hs hhd hhs
  rw [exec_hdrCopy hhd hhs]
  constructor
  · exact State.withH_of_empty
  · intro x hheld
    rw [State.withH_of_held hheld]
    exact State.done_eq_ended _

/-- Settles O42: check by check, in the order of R145; the tags listed are those of R32. -/
theorem hdrUnwrapChecksTheVariant : Obligations.HdrUnwrapChecksTheVariant := by
  intro s hs tag t hhs hlisted
  have htag : tagOfCode tag.val = some t := by
    simp only [List.mem_cons, Prod.mk.injEq, List.not_mem_nil, or_false] at hlisted
    obtain ⟨hcode, rfl⟩ | ⟨hcode, rfl⟩ | ⟨hcode, rfl⟩ := hlisted <;> rw [hcode] <;> rfl
  rw [exec_hdrUnwrap hhs htag]
  constructor
  · exact State.withH_of_empty
  · intro x hheld
    rw [State.withH_of_held hheld]
    constructor
    · exact State.withVariant_of_ne
    · intro hvariant
      rw [State.withVariant_of_eq hvariant]
      exact s.done_eq_ended

end Sys2Proof.Machine
end

section
/-! PROOFS. ENCODE and DECODE (43_codecs.md R160, R161): where a header's bits lie, the bits DECODE
reads, and the two directions of the codec law (R168, R169). -/

namespace Sys2Proof.Machine

open Sys2Proof.Claims

/-! ### Bit sequences cut along the layout (R146) -/

section
variable {fw : FlagsWidth} {t : Tag}

theorem fieldOffset_add_fieldWidth_le (fw : FlagsWidth) (t : Tag) : ∀ id < nfields t,
    fieldOffset fw t id + fieldWidth fw t id ≤ 8 * headerSize t := by
  cases fw <;> cases t <;> decide

/-- The range of a bit sequence that the layout gives a field: what DECODE slices (R161). -/
def fieldBits (fw : FlagsWidth) (t : Tag) (S : List Bool) (id : Nat) : List Bool :=
  sliceBits S (fieldOffset fw t id) (fieldOffset fw t id + fieldWidth fw t id)

theorem length_fieldBits {S : List Bool} {id : Nat} (hS : 8 * headerSize t ≤ S.length)
    (hid : id < nfields t) : (fieldBits fw t S id).length = fieldWidth fw t id := by
  rw [fieldBits, length_sliceBits_of_le ((fieldOffset_add_fieldWidth_le fw t id hid).trans hS),
    Nat.add_sub_cancel_left]

theorem getElem?_fieldBits {S : List Bool} {id p : Nat} (hp : p < fieldWidth fw t id) :
    (fieldBits fw t S id)[p]? = S[fieldOffset fw t id + p]? :=
  getElem?_sliceBits (by omega)

/-- Pieces as wide as the fields fill a sequence up to the offset of the next field. -/
theorem length_flatMap_range {f : Nat → List Bool} (hf : ∀ id, (f id).length = fieldWidth fw t id)
    {id : Nat} (hid : id < nfields t) :
    ((List.range id).flatMap f).length = fieldOffset fw t id := by
  induction id with
  | zero => exact (fieldOffset_zero fw t).symm
  | succ id ih =>
    rw [List.range_succ, List.flatMap_append, List.length_append, ih (by omega),
      List.flatMap_singleton, hf, fieldOffset_succ fw t id (by omega)]

/-- The fields' ranges of a sequence, one after the other, are the sequence's beginning. -/
theorem flatMap_range_fieldBits (S : List Bool) {id : Nat} (hid : id < nfields t) :
    (List.range (id + 1)).flatMap (fieldBits fw t S) =
      S.take (fieldOffset fw t id + fieldWidth fw t id) := by
  induction id with
  | zero => simp [fieldBits, fieldOffset_zero, sliceBits]
  | succ id ih =>
    rw [List.range_succ, List.flatMap_append, ih (by omega), List.flatMap_singleton, fieldBits,
      ← fieldOffset_succ fw t id (by omega), sliceBits, Nat.add_sub_cancel_left, ← List.take_add]

end

theorem bytesToBits_append (B C : List Byte) :
    bytesToBits (B ++ C) = bytesToBits B ++ bytesToBits C :=
  List.flatMap_append

theorem take_bytesToBits {B : List Byte} {n : Nat} (h : n ≤ B.length) :
    (bytesToBits B).take (8 * n) = bytesToBits (B.take n) := by
  have hlen : (bytesToBits (B.take n)).length = 8 * n := by
    rw [length_bytesToBits, List.length_take_of_le h]
  calc (bytesToBits B).take (8 * n)
      = (bytesToBits (B.take n) ++ bytesToBits (B.drop n)).take (8 * n) := by
        rw [← bytesToBits_append, List.take_append_drop]
    _ = bytesToBits (B.take n) := List.take_left' hlen

/-! ### The bits of an encoded header (R160) -/

section
variable {fw : FlagsWidth} {x : Header} {id : Nat}

theorem fieldBits_encodeBits (hid : id < nfields x.tag) :
    fieldBits fw x.tag (encodeBits fw x) id =
      bitsOf (x.fields.getD id 0) (fieldWidth fw x.tag id) := by
  obtain ⟨k, hk⟩ : ∃ k, nfields x.tag = id + (k + 1) := ⟨nfields x.tag - (id + 1), by omega⟩
  have hbefore := length_flatMap_range (fw := fw)
    (fun id => length_bitsOf (x.fields.getD id 0) (fieldWidth fw x.tag id)) hid
  rw [encodeBits, hk, List.range_add, List.range_succ_eq_map, List.flatMap_append, List.map_cons,
    List.flatMap_cons, fieldBits, sliceBits, Nat.add_sub_cancel_left, List.drop_left' hbefore]
  exact List.take_left' (length_bitsOf _ _)

theorem getElem?_encodeBits {p : Nat} (hid : id < nfields x.tag)
    (hp : p < fieldWidth fw x.tag id) :
    (encodeBits fw x)[fieldOffset fw x.tag id + p]? =
      some ((x.fields.getD id 0).testBit (fieldWidth fw x.tag id - 1 - p)) := by
  rw [← getElem?_bitsOf _ hp, ← fieldBits_encodeBits hid, getElem?_fieldBits hp]

end

/-! ### The bits DECODE reads (R161) -/

section
variable {fw : FlagsWidth} {t : Tag} {B : List Byte} {id : Nat}

theorem le_length_decodeInput (t : Tag) (B : List Byte) :
    8 * headerSize t ≤ (decodeInput t B).length := by
  rw [decodeInput, List.length_append, length_zeroBits]
  omega

theorem decodeInput_of_le (h : headerSize t ≤ B.length) : decodeInput t B = bytesToBits B := by
  rw [decodeInput, length_bytesToBits, Nat.sub_eq_zero_of_le (by omega)]
  exact List.append_nil _

/-- A bit of the input, or the zero that stands for one beyond its end. -/
theorem getElem?_decodeInput {p : Nat} (hp : p < 8 * headerSize t) :
    (decodeInput t B)[p]? = some (byteSeqBit B p) := by
  rw [decodeInput, byteSeqBit, List.getD_eq_getElem?_getD]
  rcases lt_or_ge p (8 * B.length) with hin | hout
  · have hbyte : p / 8 < B.length := by omega
    rw [List.getElem?_append_left (by rwa [length_bytesToBits]), getElem?_bytesToBits,
      List.getElem?_eq_getElem hbyte]
    rfl
  · rw [List.getElem?_append_right (by rwa [length_bytesToBits]), length_bytesToBits, zeroBits,
      List.getElem?_replicate_of_lt (by omega), List.getElem?_eq_none (by omega), Option.getD_none]
    exact congrArg some BitVec.getLsbD_zero.symm

theorem getElem?_fields_decodeHeader (hid : id < nfields t) :
    (decodeHeader fw t B).fields[id]? =
      some (valOf (fieldBits fw t (decodeInput t B) id)) := by
  rw [decodeHeader, List.getElem?_map, List.getElem?_range hid, Option.map_some, fieldBits]

/-- A decoded field has the bits of its range of the input. -/
theorem bitsOf_fields_decodeHeader (hid : id < nfields t) :
    bitsOf ((decodeHeader fw t B).fields.getD id 0) (fieldWidth fw t id) =
      fieldBits fw t (decodeInput t B) id := by
  rw [List.getD_eq_getElem?_getD, getElem?_fields_decodeHeader hid, Option.getD_some,
    ← length_fieldBits (fw := fw) (le_length_decodeInput t B) hid, bitsOf_valOf]

theorem testBit_fields_decodeHeader {p : Nat} (hid : id < nfields t)
    (hp : p < fieldWidth fw t id) :
    ((decodeHeader fw t B).fields.getD id 0).testBit (fieldWidth fw t id - 1 - p) =
      byteSeqBit B (fieldOffset fw t id + p) := by
  have hend := fieldOffset_add_fieldWidth_le fw t id hid
  have hbit := getElem?_bitsOf ((decodeHeader fw t B).fields.getD id 0) hp
  rw [bitsOf_fields_decodeHeader hid, getElem?_fieldBits hp,
    getElem?_decodeInput (by omega)] at hbit
  exact (Option.some.inj hbit).symm

theorem decodesTo_decodeHeader (fw : FlagsWidth) (t : Tag) (B : List Byte) :
    decodesTo fw t B (decodeHeader fw t B) := by
  obtain ⟨hlen, hfits⟩ := Header.inv_decodeHeader fw t B
  exact ⟨rfl, hlen, fun id hid => ⟨hfits id hid, fun _ => testBit_fields_decodeHeader hid⟩⟩

/-! ### The two directions of the codec law -/

theorem decodeInput_encodeHeader (fw : FlagsWidth) (x : Header) :
    decodeInput x.tag (encodeHeader fw x) = encodeBits fw x := by
  rw [decodeInput_of_le (length_encodeHeader fw x).ge, encodeHeader,
    bytesToBits_bitsToBytes_of_length (length_encodeBits fw x)]

/-- R168 on the values: each field is read back from the range it was written to. -/
theorem decodeHeader_encodeHeader {x : Header} (hx : x.inv fw) :
    decodeHeader fw x.tag (encodeHeader fw x) = x := by
  obtain ⟨hlen, hfits⟩ := hx
  have hfields : (decodeHeader fw x.tag (encodeHeader fw x)).fields = x.fields := by
    refine List.ext_getElem? fun id => ?_
    rcases lt_or_ge id (nfields x.tag) with hid | hid
    · have hheld : x.fields[id]? = some (x.fields.getD id 0) := by
        rw [List.getD_eq_getElem _ _ (hlen ▸ hid), List.getElem?_eq_getElem]
      rw [getElem?_fields_decodeHeader hid, decodeInput_encodeHeader, fieldBits_encodeBits hid,
        valOf_bitsOf_of_lt (hfits id hid), hheld]
    · rw [List.getElem?_eq_none ((Header.inv_decodeHeader fw _ _).1.trans_le hid),
        List.getElem?_eq_none (hlen.trans_le hid)]
  obtain ⟨tag, fields⟩ := x
  exact congrArg (Header.mk tag) hfields

/-- R160 after R161: the fields' ranges one after the other are the header's span of the input. -/
theorem encodeBits_decodeHeader (fw : FlagsWidth) (t : Tag) (B : List Byte) :
    encodeBits fw (decodeHeader fw t B) = (decodeInput t B).take (8 * headerSize t) := by
  have hlast : nfields t - 1 + 1 = nfields t := by cases t <;> rfl
  calc encodeBits fw (decodeHeader fw t B)
      = (List.range (nfields t)).flatMap (fieldBits fw t (decodeInput t B)) :=
        List.flatMap_congr fun _ hid => bitsOf_fields_decodeHeader (List.mem_range.1 hid)
    _ = (decodeInput t B).take (8 * headerSize t) := by
        rw [← hlast, flatMap_range_fieldBits _ (by omega), fieldOffset_last_add_fieldWidth]

end

/-- Settles O46: the encoded bits are the input's first 8 * size(t), which are those of its first
size(t) bytes. -/
theorem encodeOfDecodeIsTheBytes : Obligations.EncodeOfDecodeIsTheBytes := by
  intro fw t B hlen
  rw [encodeHeader, encodeBits_decodeHeader, decodeInput_of_le hlen, take_bytesToBits hlen,
    bitsToBytes_bytesToBits]

end Sys2Proof.Machine
end

section
/-! PROOFS. The header codec commands (43_codecs.md R162 to R168). -/

namespace Sys2Proof.Machine

open Sys2Proof.Claims

/-- A read of the bytes that the last MEM write has stored gives those bytes (R61). -/
theorem State.memBytes_of_mem_eq {s : State} {m : Memory} {a : Nat} {B : List Byte}
    (h : s.mem = Memory.writeBytes m a B) : s.memBytes a B.length = B := by
  refine List.ext_getElem (s.length_memBytes a _) fun k _ hk => ?_
  have hread : Memory.read? s.mem (a + k) = some B[k] := by
    rw [h, Memory.read?_writeBytes_inside hk]
  exact Option.some.inj ((List.getElem?_eq_getElem _).symm.trans
    ((State.getElem?_memBytes hk).trans (congrArg some (State.memByte_of_read? hread))))

/-! ### The commands on instances where their index is legal -/

section
variable {s : State} {t : Tag} {hs hd : RegIdx} {x : Header}

theorem exec_createOf (hhs : hs.val < s.cfg.nh) :
    exec (createOf t hs) s = s.createHeader t hs := by
  cases t <;> exact State.command_of_legal (decide_eq_true hhs) rfl

theorem exec_parseOf (hhd : hd.val < s.cfg.nh) :
    exec (parseOf t hd) s = s.parseHeader t hd := by
  cases t <;> exact State.command_of_legal (decide_eq_true hhd) rfl

/-- CREATE when every check passes: the header's bytes are stored. -/
theorem exec_createOf_of_held (hhs : hs.val < s.cfg.nh) (hheld : s.h[hs.val]? = some (some x))
    (hrange : s.arg0.toNat + headerSize x.tag ≤ s.cfg.memSize) :
    exec (createOf x.tag hs) s = .next (ended { s with
      mem := Memory.writeBytes s.mem s.arg0.toNat (encodeHeader s.cfg.flagsWidth x),
      res0 := BitVec.ofNat 64 (headerSize x.tag) } 0) := by
  rw [exec_createOf hhs, State.createHeader, State.withH_of_held hheld,
    State.withVariant_of_eq rfl, State.withRange_of_le hrange, State.done_eq_ended]
  rfl

/-- PARSE when its check passes: the decoded header is in the register, and MEM was read once. -/
theorem exec_parseOf_of_range (hhd : hd.val < s.cfg.nh)
    (hrange : s.arg0.toNat + s.arg1.toNat ≤ s.cfg.memSize) :
    exec (parseOf t hd) s = .next (ended { s with
      h := s.h.set hd.val (some (decodeHeader s.cfg.flagsWidth t
        (s.memBytes s.arg0.toNat s.arg1.toNat))),
      draws := s.draws + 1 } 0) := by
  rw [exec_parseOf hhd, State.parseHeader, State.withRange_of_le hrange, State.done_eq_ended]
  rfl

end

/-! ### What the commands give -/

/-- Settles O43: check by check; the bytes stored are those of the header's bits. -/
theorem createStoresTheHeaderBytes : Obligations.CreateStoresTheHeaderBytes := by
  intro s t hs hhs
  constructor
  · intro hempty
    rw [exec_createOf hhs]
    exact State.withH_of_empty hempty
  · intro x hheld
    constructor
    · intro hvariant
      rw [exec_createOf hhs, State.createHeader, State.withH_of_held hheld]
      exact State.withVariant_of_ne hvariant
    · rintro rfl
      constructor
      · intro hout
        rw [exec_createOf hhs, State.createHeader, State.withH_of_held hheld,
          State.withVariant_of_eq rfl]
        exact State.withRange_of_lt hout
      · intro hrange
        have hbits := length_encodeBits s.cfg.flagsWidth x
        refine ⟨_, exec_createOf_of_held hhs hheld hrange, storedOnly_bitsToBytes _ _ hbits,
          fun id p hid hp => ?_⟩
        have hend := fieldOffset_add_fieldWidth_le s.cfg.flagsWidth x.tag id hid
        exact (wireBit_bitsToBytes _ _ hbits (by omega)).trans (getElem?_encodeBits hid hp)

/-- Settles O44: the header is the one decoded from the bytes of one read of MEM. -/
theorem parseReadsTheHeader : Obligations.ParseReadsTheHeader := by
  intro s t hd hhd
  constructor
  · intro hout
    rw [exec_parseOf hhd]
    exact State.withRange_of_lt hout
  · intro hrange
    exact ⟨_, _, _, readsAs_memBytes s _ _, decodesTo_decodeHeader _ _ _,
      exec_parseOf_of_range hhd hrange⟩

/-- PARSE of the bytes that CREATE has stored gives the header back (R168). -/
theorem exec_parseOf_of_encodeHeader {s : State} {m : Memory} {hd : RegIdx} {x : Header}
    (hhd : hd.val < s.cfg.nh) (hx : x.inv s.cfg.flagsWidth)
    (hmem : s.mem = Memory.writeBytes m s.arg0.toNat (encodeHeader s.cfg.flagsWidth x))
    (hcount : s.arg1.toNat = headerSize x.tag)
    (hrange : s.arg0.toNat + headerSize x.tag ≤ s.cfg.memSize) :
    exec (parseOf x.tag hd) s = .next (ended { s with
      h := s.h.set hd.val (some x), draws := s.draws + 1 } 0) := by
  have hbytes := State.memBytes_of_mem_eq hmem
  rw [length_encodeHeader] at hbytes
  rw [exec_parseOf_of_range hhd (hcount ▸ hrange), hcount, hbytes, decodeHeader_encodeHeader hx]

/-- Settles O45: the two commands one after the other; the header fits its layout, since the state
has the invariant. -/
theorem createThenParseIsTheHeader : Obligations.CreateThenParseIsTheHeader := by
  intro s hh hk x off hinv hhh hhk hheld hrange
  have hx : x.inv s.cfg.flagsWidth := hinv.of_hReg (regRead_of_getElem? hheld)
  have hcount : (BitVec.ofNat 64 (headerSize x.tag)).toNat = headerSize x.tag := by
    cases x.tag <;> rfl
  have hcreate := exec_createOf_of_held (s := { s with arg0 := off }) hhh hheld hrange
  exact ⟨_, _, hcreate, exec_parseOf_of_encodeHeader hhk hx rfl hcount hrange, code_ended _ .ok,
    getElem?_regWrite_self (hinv.hSize.symm ▸ hhk)⟩

end Sys2Proof.Machine
end

section
/-! PROOFS. The FrameAssembly commands (44_assembly.md R181 to R189): the slots, the frame that is
parsed, and the frame that is built. -/

namespace Sys2Proof.Machine

open Sys2Proof.Claims

/-! ### The slots (R181, R182) -/

section
variable {s : State} {hs hd : RegIdx} {layer : Imm} {slot : Option Header} {x : Header}

section
variable {k : Header → StepResult}

theorem State.withSlot_of_absent (h : slot = none) : s.withSlot slot k = .next (ended s 0x15) := by
  subst h
  exact s.raise_eq_ended .layerAbsent

theorem State.withSlot_of_held (h : slot = some x) : s.withSlot slot k = k x := by
  subst h
  rfl

end

theorem exec_faSet (hhs : hs.val < s.cfg.nh) :
    exec (.faSet hs) s =
      s.withH hs fun x =>
        (if layerOf x.tag = 2 then { s with l2 := some x } else { s with l3 := some x } :
          State).done :=
  State.command_of_legal (decide_eq_true hhs) rfl

theorem exec_faGet_of_absent (hhd : hd.val < s.cfg.nh) (hlayer : legalLayerImm layer = true)
    (hslot : s.slot layer.val = none) : exec (.faGet hd layer) s = .next (ended s 0x15) :=
  (State.command_of_legal (j := .faGet hd layer) (decide_eq_true hhd) hlayer).trans
    (State.withSlot_of_absent hslot)

theorem exec_faGet_of_held (hhd : hd.val < s.cfg.nh) (hlayer : legalLayerImm layer = true)
    (hslot : s.slot layer.val = some x) :
    exec (.faGet hd layer) s = .next (ended { s with h := s.h.set hd.val (some x) } 0) :=
  calc exec (.faGet hd layer) s
      = s.withSlot (s.slot layer.val) fun x => (s.setH hd x).done :=
        State.command_of_legal (decide_eq_true hhd) hlayer
    _ = (s.setH hd x).done := State.withSlot_of_held hslot
    _ = _ := State.done_eq_ended _

end

/-- Settles O47: by what the register holds; only an Ethernet header has layer 2 (R147). -/
theorem faSetInsertsAtTheLayer : Obligations.FaSetInsertsAtTheLayer := by
  intro s hs hhs
  rw [exec_faSet hhs]
  constructor
  · exact State.withH_of_empty
  · intro x hheld
    rw [State.withH_of_held hheld, State.done_eq_ended]
    constructor
    · intro hethernet
      rw [if_pos (layerOf_eq_two.2 hethernet)]
    · intro hother
      rw [if_neg (mt layerOf_eq_two.1 hother)]

/-- Settles O48: by what the slot holds; layer 2 is L2 and layer 3 is L3. -/
theorem faGetCopiesTheSlot : Obligations.FaGetCopiesTheSlot := fun _ _ hhd =>
  ⟨exec_faGet_of_absent (layer := 2) hhd rfl, exec_faGet_of_absent (layer := 3) hhd rfl,
    fun _ => exec_faGet_of_held (layer := 2) hhd rfl,
    fun _ => exec_faGet_of_held (layer := 3) hhd rfl⟩

/-! ### The frame parsed (R183, R184) -/

theorem exec_faParse (s : State) :
    exec .faParse s =
      s.withRange s.arg0.toNat s.arg1.toNat
        (s.drawn.parseFrame (s.memBytes s.arg0.toNat s.arg1.toNat)).done :=
  State.command_of_legal (s := s) (j := .faParse) rfl rfl

section
variable {fw : FlagsWidth} {e : Header} {B : List Byte}

theorem parsePayload_of_known {t : Tag} (h : etherTypeLookup (e.fields.getD 2 0) = some t) :
    parsePayload fw e B = some (decodeHeader fw t (B.drop 14)) := by
  rw [parsePayload, h]

theorem parsePayload_of_unknown (h : etherTypeLookup (e.fields.getD 2 0) = none) :
    parsePayload fw e B = none := by
  rw [parsePayload, h]

end

/-- Settles O49: the headers are those decoded from the bytes of one read of MEM, the second one as
the EtherType of the first says. -/
theorem faParseReadsTheFrame : Obligations.FaParseReadsTheFrame := by
  intro s
  rw [exec_faParse]
  constructor
  · exact State.withRange_of_lt
  · intro hrange
    rw [State.withRange_of_le hrange]
    refine ⟨_, _, _, _, readsAs_memBytes s _ _, decodesTo_decodeHeader _ _ _, ?arp, ?ipv4, ?unknown,
      State.done_eq_ended _⟩
    case arp =>
      intro htype
      exact ⟨_, parsePayload_of_known (if_pos htype), decodesTo_decodeHeader _ _ _⟩
    case ipv4 =>
      intro htype
      have hlookup : etherTypeLookup _ = some .ipv4 := congrArg etherTypeLookup htype
      exact ⟨_, parsePayload_of_known hlookup, decodesTo_decodeHeader _ _ _⟩
    case unknown =>
      intro harp hipv4
      exact parsePayload_of_unknown ((if_neg harp).trans (if_neg hipv4))

/-! ### The frame built (R185, R187, R188) -/

/-- What FA.BUILD makes of the parameters and the two slots: the new FA_BUF or the code of the check
that fails. There is no ConstructError (R188). -/
def builtFrame (cfg : Config) (l2 l3 : Option Header) : Except StatusCode (List Byte) :=
  match l3, l2 with
  | none, _ => .error .layerAbsent
  | some _, none => if cfg.legacyEmptyBuild then .ok [] else .error .layerAbsent
  | some x, some e => .ok (padFrame (frameBytes cfg.flagsWidth e x))

section
variable {cfg : Config} {l2 l3 : Option Header} {e x : Header}

theorem builtFrame_of_l3_absent (hl3 : l3 = none) :
    builtFrame cfg l2 l3 = .error .layerAbsent := by
  subst hl3
  rfl

theorem builtFrame_of_l2_absent (hl3 : l3 = some x) (hl2 : l2 = none)
    (hlegacy : cfg.legacyEmptyBuild = false) : builtFrame cfg l2 l3 = .error .layerAbsent := by
  subst hl3 hl2
  exact if_neg (Bool.eq_false_iff.1 hlegacy)

theorem builtFrame_of_legacy (hl3 : l3 = some x) (hl2 : l2 = none)
    (hlegacy : cfg.legacyEmptyBuild = true) : builtFrame cfg l2 l3 = .ok [] := by
  subst hl3 hl2
  exact if_pos hlegacy

theorem builtFrame_of_held (hl3 : l3 = some x) (hl2 : l2 = some e) :
    builtFrame cfg l2 l3 = .ok (padFrame (frameBytes cfg.flagsWidth e x)) := by
  subst hl3 hl2
  rfl

theorem builtFrame_eq_error {c : StatusCode} (h : builtFrame cfg l2 l3 = .error c) :
    c = .layerAbsent := by
  unfold builtFrame at h
  split at h
  · cases h; rfl
  · split at h <;> cases h; rfl
  · cases h

end

/-- The state in which FA.BUILD ends, from what it makes of the slots: it writes FA_BUF or, where a
check fails, nothing but STATUS. -/
def State.afterBuild (s : State) : Except StatusCode (List Byte) → State
  | .ok B => ended { s with faBuf := B } 0
  | .error c => ended s c.num

theorem code_afterBuild_ok (s : State) (B : List Byte) :
    (s.afterBuild (.ok B)).status.toNat % 256 = 0 := code_ended _ .ok

theorem code_afterBuild_error (s : State) (c : StatusCode) :
    (s.afterBuild (.error c)).status.toNat % 256 = c.num := code_ended s c

/-- FA.BUILD reads nothing but the slots and the parameters (R187): slot by slot, and the length
check never fails. -/
theorem exec_faBuild (s : State) :
    exec .faBuild s = .next (s.afterBuild (builtFrame s.cfg s.l2 s.l3)) := by
  rw [show exec .faBuild s = execFaBuild s from rfl, execFaBuild, State.command_of_legal rfl rfl]
  obtain hl3 | ⟨x, hl3⟩ := s.l3.eq_none_or_eq_some
  · rw [State.withSlot_of_absent hl3, builtFrame_of_l3_absent hl3]
    rfl
  · rw [State.withSlot_of_held hl3]
    split
    · next hl2 =>
      split
      · next hlegacy =>
        rw [builtFrame_of_legacy hl3 hl2 hlegacy]
        exact State.done_eq_ended _
      · next hstrict =>
        rw [builtFrame_of_l2_absent hl3 hl2 (Bool.eq_false_iff.2 hstrict)]
        exact s.raise_eq_ended .layerAbsent
    · next e hl2 =>
      rw [if_neg (Nat.not_lt.2 (length_frameBytes_le s.cfg.flagsWidth e x)),
        builtFrame_of_held hl3 hl2]
      exact State.done_eq_ended _

theorem drop_length_padFrame (B : List Byte) :
    (padFrame B).drop B.length = List.replicate (ethMinFrame - B.length) 0 :=
  List.drop_left

theorem length_frameBytes (fw : FlagsWidth) (e x : Header) :
    (frameBytes fw e x).length = headerSize e.tag + headerSize x.tag := by
  simp [frameBytes]

/-- The built frame is 60 bytes, and those after the two headers are zero (R185). -/
theorem padFrame_frameBytes_zero_from {fw : FlagsWidth} {e x : Header} {n : Nat}
    (hn : headerSize e.tag + headerSize x.tag = n) :
    (padFrame (frameBytes fw e x)).length = 60 ∧
      (padFrame (frameBytes fw e x)).drop n = List.replicate (60 - n) 0 := by
  refine ⟨length_padFrame (length_frameBytes_le fw e x), ?_⟩
  have hlen := (length_frameBytes fw e x).trans hn
  have hzero := drop_length_padFrame (frameBytes fw e x)
  rwa [hlen] at hzero

/-- Settles O50: slot by slot, L3 first; the length check fails for no two headers. -/
theorem faBuildEncapsulatesAndPads : Obligations.FaBuildEncapsulatesAndPads := by
  intro s
  rw [exec_faBuild]
  constructor
  · intro hl3
    rw [builtFrame_of_l3_absent hl3]
    rfl
  · intro x hl3
    refine ⟨fun hl2 hlegacy => ?strict, fun hl2 hlegacy => ?legacy, fun e B hl2 hB => ?held⟩
    case strict =>
      rw [builtFrame_of_l2_absent hl3 hl2 hlegacy]
      rfl
    case legacy =>
      rw [builtFrame_of_legacy hl3 hl2 hlegacy]
      rfl
    case held =>
      have hshort : B.length ≤ 60 := hB ▸ length_frameBytes_le s.cfg.flagsWidth e x
      rw [builtFrame_of_held hl3 hl2, if_neg (Nat.not_lt.2 hshort), hB]
      rfl

/-- Settles O51: LayerAbsent is the only code other than OK, and the two headers have 14 bytes and
28 or 20. -/
theorem faBuildNeverRaisesConstructError : Obligations.FaBuildNeverRaisesConstructError := by
  intro s t ht
  obtain rfl := next_eq_next.1 ((exec_faBuild s).symm.trans ht)
  constructor
  · cases hbuilt : builtFrame s.cfg s.l2 s.l3 with
    | ok B =>
      rw [code_afterBuild_ok]
      decide
    | error c =>
      rw [code_afterBuild_error, builtFrame_eq_error hbuilt]
      decide
  · intro e x hl2 hl3 he
    rw [builtFrame_of_held hl3 hl2]
    constructor
    · intro hx
      exact padFrame_frameBytes_zero_from (n := 42) (by rw [he, hx]; rfl)
    · intro hx
      exact padFrame_frameBytes_zero_from (n := 34) (by rw [he, hx]; rfl)

/-- Settles O52: both runs end as the one value of builtFrame says. -/
theorem faBuildIsDeterminedByTheSlots : Obligations.FaBuildIsDeterminedByTheSlots := by
  intro s s' t t' hl2 hl3 hcfg ht ht'
  obtain rfl := next_eq_next.1 ((exec_faBuild s).symm.trans ht)
  obtain rfl := next_eq_next.1 ((exec_faBuild s').symm.trans ht')
  rw [hl2, hl3, hcfg]
  cases hbuilt : builtFrame s'.cfg s'.l2 s'.l3 with
  | ok B =>
    rw [code_afterBuild_ok, code_afterBuild_ok]
    exact ⟨rfl, fun _ => rfl⟩
  | error c =>
    rw [code_afterBuild_error, code_afterBuild_error, builtFrame_eq_error hbuilt]
    exact ⟨rfl, nofun⟩

/-! ### The frame read out (R186) -/

theorem exec_faRead (s : State) :
    exec .faRead s =
      s.withRange s.arg0.toNat s.faBuf.length
        ((s.memWrite s.arg0.toNat s.faBuf).setRes0 s.faBuf.length).done :=
  State.command_of_legal (s := s) (j := .faRead) rfl rfl

/-- Settles O53: the range check, then the bytes of one MEM write. -/
theorem faReadStoresTheBuffer : Obligations.FaReadStoresTheBuffer := by
  intro s
  rw [exec_faRead]
  constructor
  · exact State.withRange_of_lt
  · intro hrange
    rw [State.withRange_of_le hrange]
    refine ⟨_, State.done_eq_ended _, storedOnly_writeBytes _ _ _, fun k hk => ?_⟩
    exact (Memory.read?_writeBytes_inside hk).trans (List.getElem?_eq_getElem hk).symm

end Sys2Proof.Machine
end

section
/-! PROOFS. The matcher commands (45_matcher.md R200 to R208): what it is for a predicate to match a
header, a match in the words of the claims, and the commands on the Q file. -/

namespace Sys2Proof.Machine

open Sys2Proof.Claims

/-! ### A predicate against a header (R200) -/

theorem fieldMatches_iff {e : Option Nat} {v : Nat} :
    fieldMatches e v = true ↔ e = none ∨ e = some v := by
  cases e with
  | none => simp [fieldMatches]
  | some w => simp [fieldMatches]

theorem predicateMatches_iff {p : Predicate} {x : Header} :
    predicateMatches p x = true ↔ ∀ id, id < nfields p.tag →
      p.fields.getD id none = none ∨ p.fields.getD id none = some (x.fields.getD id 0) := by
  simp only [predicateMatches, List.all_eq_true, List.mem_range, fieldMatches_iff]

/-- One field that constrains to another value decides the match. -/
theorem predicateMatches_eq_false {p : Predicate} {x : Header} {id v : Nat}
    (hid : id < nfields p.tag) (hentry : p.fields.getD id none = some v)
    (hv : v ≠ x.fields.getD id 0) : predicateMatches p x = false := by
  rw [← Bool.not_eq_true, predicateMatches_iff]
  intro hall
  obtain hnone | hsome := hall id hid
  · exact absurd (hentry.symm.trans hnone) (Option.some_ne_none v)
  · exact hv (Option.some.inj (hentry.symm.trans hsome))

section
variable {x : Header}

/-- The first law of R208. -/
theorem predicateMatches_wildcards :
    predicateMatches ⟨x.tag, List.replicate (nfields x.tag) none⟩ x = true :=
  predicateMatches_iff.2 fun _ hid => .inl (List.getD_replicate none hid)

/-- The second law of R208: the other fields are wildcards, so the one set decides. -/
theorem predicateMatches_set_wildcards {id v : Nat} (hid : id < nfields x.tag) :
    predicateMatches ⟨x.tag, (List.replicate (nfields x.tag) none).set id (some v)⟩ x =
      decide (x.fields.getD id 0 = v) := by
  by_cases hv : x.fields.getD id 0 = v
  · rw [decide_eq_true hv, predicateMatches_iff]
    exact forall_getD_set (P := fun j e => e = none ∨ e = some (x.fields.getD j 0))
      (fun _ hj => .inl (List.getD_replicate none hj)) (.inr (congrArg some hv.symm))
  · rw [decide_eq_false hv]
    exact predicateMatches_eq_false hid (by simp [List.getD, hid]) (Ne.symm hv)

end

/-! ### A match, a predicate operand and the natural layer, when their outcome is known -/

section
variable {s : State} {p : Predicate} {x : Header}

theorem State.matchHeader_of_tag_eq (htag : p.tag = x.tag) :
    s.matchHeader p x =
      .next (ended { s with res0 := BitVec.ofNat 64 (predicateMatches p x).toNat } 0) :=
  (if_pos htag).trans (State.done_eq_ended _)

theorem State.matchHeader_of_noMatch (htag : p.tag ≠ x.tag) (hcfg : s.cfg.tagMismatch = .noMatch) :
    s.matchHeader p x = .next (ended { s with res0 := 0 } 0) := by
  rw [State.matchHeader, if_neg htag, hcfg]
  exact State.done_eq_ended _

theorem State.matchHeader_of_unwrap (htag : p.tag ≠ x.tag) (hcfg : s.cfg.tagMismatch = .unwrap) :
    s.matchHeader p x = .next (ended s 0x04) := by
  rw [State.matchHeader, if_neg htag, hcfg]
  exact s.raise_eq_ended .unwrapHeaderError

/-- What Q.MATCH and Q.MATCHFA share once there is a header (R200, R207). -/
theorem State.matchHeader_evaluates (s : State) (p : Predicate) (x : Header) :
    (p.tag ≠ x.tag → s.cfg.tagMismatch = .noMatch →
      s.matchHeader p x = .next (ended { s with res0 := 0 } 0)) ∧
    (p.tag ≠ x.tag → s.cfg.tagMismatch = .unwrap → s.matchHeader p x = .next (ended s 0x04)) ∧
    (p.tag = x.tag →
      ((∀ id, id < nfields p.tag → p.fields.getD id none = none ∨
          p.fields.getD id none = some (x.fields.getD id 0)) →
        s.matchHeader p x = .next (ended { s with res0 := 1 } 0)) ∧
      ∀ id v, id < nfields p.tag → p.fields.getD id none = some v → v ≠ x.fields.getD id 0 →
        s.matchHeader p x = .next (ended { s with res0 := 0 } 0)) := by
  refine ⟨State.matchHeader_of_noMatch, State.matchHeader_of_unwrap, fun htag => ?_⟩
  rw [State.matchHeader_of_tag_eq htag]
  constructor
  · intro hall
    rw [predicateMatches_iff.2 hall]
    rfl
  · intro id v hid hentry hv
    rw [predicateMatches_eq_false hid hentry hv]
    rfl

section
variable {i : RegIdx} {k : Predicate → StepResult}

theorem State.withQ_of_empty (h : s.q[i.val]? = some none) :
    s.withQ i k = .next (ended s 0x11) := by
  rw [State.withQ, State.qReg, regRead_of_getElem? h]
  exact s.raise_eq_ended .notInitialised

theorem State.withQ_of_held (h : s.q[i.val]? = some (some p)) : s.withQ i k = k p := by
  rw [State.withQ, State.qReg, regRead_of_getElem? h]

end

/-- The natural layer of a protocol is L2 for Ethernet and L3 for the others (R147, R206). -/
theorem State.slot_layerOf {t : Tag} {slot : Option Header}
    (h : (t = .ethernet ∧ slot = s.l2) ∨ (t ≠ .ethernet ∧ slot = s.l3)) :
    s.slot (layerOf t) = slot := by
  obtain ⟨ht, rfl⟩ | ⟨ht, rfl⟩ := h
  · exact if_pos (layerOf_eq_two.2 ht)
  · exact if_neg (mt layerOf_eq_two.1 ht)

end

/-! ### The commands on instances where their indices and tags are legal -/

section
variable {s : State} {qd qs hs : RegIdx} {tag field : Imm} {t : Tag}

/-- Q.INIT: none of its checks is left (R201). -/
theorem exec_qInit (hqd : qd.val < s.cfg.nq) (htag : tagOfCode tag.val = some t) :
    exec (.qInit qd tag) s = .next (ended { s with
      q := s.q.set qd.val (some ⟨t, List.replicate (nfields t) none⟩) } 0) :=
  calc exec (.qInit qd tag) s
      = s.withTag tag fun t => (s.setQ qd ⟨t, List.replicate (nfields t) none⟩).done :=
        State.command_of_legal (decide_eq_true hqd) (legalTagImm_of_tagOfCode htag)
    _ = (s.setQ qd ⟨t, List.replicate (nfields t) none⟩).done := State.withTag_of_tagOfCode htag
    _ = _ := State.done_eq_ended _

theorem exec_qSet (hqd : qd.val < s.cfg.nq) :
    exec (.qSet qd field) s =
      s.withQ qd fun p => s.withField p.tag field.val (s.withFits p.tag field.val s.arg0.toNat
        (s.setQ qd { p with fields := p.fields.set field.val (some s.arg0.toNat) }).done) :=
  State.command_of_legal (decide_eq_true hqd) rfl

theorem exec_qAny (hqd : qd.val < s.cfg.nq) :
    exec (.qAny qd field) s =
      s.withQ qd fun p => s.withField p.tag field.val
        (s.setQ qd { p with fields := p.fields.set field.val none }).done :=
  State.command_of_legal (decide_eq_true hqd) rfl

theorem exec_qMatch (hqs : qs.val < s.cfg.nq) (hhs : hs.val < s.cfg.nh) :
    exec (.qMatch qs hs) s = s.withQ qs fun p => s.withH hs fun x => s.matchHeader p x :=
  State.command_of_legal (Bool.and_eq_true_iff.2 ⟨decide_eq_true hqs, decide_eq_true hhs⟩) rfl

theorem exec_qMatchfa (hqs : qs.val < s.cfg.nq) :
    exec (.qMatchfa qs) s =
      s.withQ qs fun p =>
        (s.slot (layerOf p.tag)).elim (s.setRes0 0).done fun x => s.matchHeader p x := by
  refine (State.command_of_legal (s := s) (j := .qMatchfa qs) (decide_eq_true hqs) rfl).trans ?_
  refine congrArg (s.withQ qs) (funext fun p => ?_)
  cases s.slot (layerOf p.tag) <;> rfl

/-- Q.MATCH of a predicate of the header's protocol: RES0 is the result, and the code is OK. -/
theorem exec_qMatch_of_tag_eq {p : Predicate} {x : Header} (hqs : qs.val < s.cfg.nq)
    (hhs : hs.val < s.cfg.nh) (hp : s.q[qs.val]? = some (some p))
    (hx : s.h[hs.val]? = some (some x)) (htag : p.tag = x.tag) :
    exec (.qMatch qs hs) s =
      .next (ended { s with res0 := BitVec.ofNat 64 (predicateMatches p x).toNat } 0) := by
  rw [exec_qMatch hqs hhs, State.withQ_of_held hp, State.withH_of_held hx,
    State.matchHeader_of_tag_eq htag]

end

/-! ### What the commands give -/

/-- Settles O54: tag by tag. -/
theorem qInitGivesWildcards : Obligations.QInitGivesWildcards := by
  intro s qd hqd
  rw [List.forall_mem_cons, List.forall_mem_cons, List.forall_mem_singleton]
  exact ⟨exec_qInit hqd rfl, exec_qInit hqd rfl, exec_qInit hqd rfl⟩

/-- Settles O55: check by check, in the order of R202 and R203. -/
theorem qSetConstrainsAndQAnyFrees : Obligations.QSetConstrainsAndQAnyFrees := by
  intro s qd field hqd
  rw [exec_qSet hqd, exec_qAny hqd]
  constructor
  · exact fun hempty => ⟨State.withQ_of_empty hempty, State.withQ_of_empty hempty⟩
  · intro p hheld
    rw [State.withQ_of_held hheld, State.withQ_of_held hheld]
    constructor
    · exact fun hfield => ⟨State.withField_of_le hfield, State.withField_of_le hfield⟩
    · intro hfield
      rw [State.withField_of_lt hfield, State.withField_of_lt hfield]
      refine ⟨State.done_eq_ended _, State.withFits_of_le, fun hfits => ?_⟩
      rw [State.withFits_of_lt hfits]
      exact State.done_eq_ended _

/-- Settles O56: check by check, in the order of R204, then the match. -/
theorem qMatchEvaluatesThePredicate : Obligations.QMatchEvaluatesThePredicate := by
  intro s qs hs hqs hhs
  rw [exec_qMatch hqs hhs]
  constructor
  · exact State.withQ_of_empty
  · intro p hheld
    rw [State.withQ_of_held hheld]
    constructor
    · exact State.withH_of_empty
    · intro x hx
      rw [State.withH_of_held hx]
      exact s.matchHeader_evaluates p x

/-- Settles O57: by what the slot at the natural layer holds, then the match. -/
theorem qMatchfaEvaluatesAtTheNaturalLayer : Obligations.QMatchfaEvaluatesAtTheNaturalLayer := by
  intro s qs hqs
  rw [exec_qMatchfa hqs]
  constructor
  · exact State.withQ_of_empty
  · intro p slot hheld hslot
    rw [State.withQ_of_held hheld, State.slot_layerOf hslot]
    constructor
    · rintro rfl
      exact State.done_eq_ended _
    · rintro x rfl
      exact s.matchHeader_evaluates p x

/-- Settles O58: the two laws are those of the match itself, which RES0 reports. -/
theorem wildcardLawsHold : Obligations.WildcardLawsHold := by
  intro s qs hs x hqs hhs hx
  constructor
  · intro hp
    refine ⟨_, exec_qMatch_of_tag_eq hqs hhs hp hx rfl, code_ended _ .ok, ?_⟩
    rw [predicateMatches_wildcards]
    rfl
  · intro id v hid hp
    refine ⟨_, exec_qMatch_of_tag_eq hqs hhs hp hx rfl, code_ended _ .ok, ?_⟩
    rw [predicateMatches_set_wildcards hid]
    by_cases hv : x.fields.getD id 0 = v
    · rw [if_pos hv, decide_eq_true hv]
      rfl
    · rw [if_neg hv, decide_eq_false hv]
      rfl

end Sys2Proof.Machine
end

section
/-! PROOFS. How commands end (60_exceptions.md R240 to R244; 45_matcher.md R207): an operand form that
fails writes its code to STATUS and nothing else, so a command ends OK or with a code listed for it;
and which host accesses clear STATUS.ERR. -/

namespace Sys2Proof.Machine

open Sys2Proof.Claims

/-! ### STATUS at the end of a command -/

theorem code_withStatus (u : State) (c : StatusCode) :
    (u.withStatus c).status.toNat % 256 = c.num := statusCode_statusAfter u.status c

/-- The end of a command sets ERR when the code is not OK, and never clears it (R244). -/
theorem err_withStatus (u : State) (c : StatusCode) :
    (u.withStatus c).status.getLsbD 8 = (u.status.getLsbD 8 || decide (c.num ≠ 0)) := by
  rw [State.withStatus_eq_ended]
  simp only [ended]
  cases u.status.getLsbD 8 <;> cases c <;> rfl

/-! ### The ends that a command may have -/

/-- The command named `m` may raise `code`: the "raised by" column of R240 lists it, and a matcher
command raises UnwrapHeaderError only where the parameter says so (R207). -/
def MayRaise (cfg : Config) (m : String) (code : Nat) : Prop :=
  m ∈ raisedBy code ∧ (code = 0x04 → m ∈ ["Q.MATCH", "Q.MATCHFA"] → cfg.tagMismatch = .unwrap)

/-- State `t` is an end that the command named `m`, legal in `s`, may have: ERR is as R244 says, and
the code is OK, or one that it may raise after no other write (R243). -/
structure LegalEnd (m : String) (s t : State) : Prop where
  err : t.status.getLsbD 8 = (s.status.getLsbD 8 || decide (t.status.toNat % 256 ≠ 0))
  code : t.status.toNat % 256 = 0 ∨
    MayRaise s.cfg m (t.status.toNat % 256) ∧ t = { s with status := t.status }

section
variable {m : String} {s t u : State} {c : StatusCode} {i : Instr}

@[simp] theorem legalEnd_ok :
    LegalEnd m s (u.withStatus .ok) ↔ u.status.getLsbD 8 = s.status.getLsbD 8 := by
  have hcode : (u.withStatus .ok).status.toNat % 256 = 0 := code_withStatus u .ok
  have herr := (err_withStatus u .ok).trans (Bool.or_false _)
  constructor
  · rintro ⟨hend, -⟩
    rw [herr, hcode] at hend
    exact hend.trans (Bool.or_false _)
  · intro hkept
    refine ⟨?_, .inl hcode⟩
    rw [herr, hcode]
    exact hkept.trans (Bool.or_false _).symm

@[simp] theorem legalEnd_raise :
    LegalEnd m s (s.withStatus c) ↔ c.num = 0 ∨ MayRaise s.cfg m c.num := by
  have hcode := code_withStatus s c
  constructor
  · rintro ⟨-, hend⟩
    rw [hcode] at hend
    exact hend.imp_right And.left
  · intro hraise
    refine ⟨hcode ▸ err_withStatus s c, ?_⟩
    rw [hcode]
    exact hraise.imp_right (⟨·, rfl⟩)

/-- Check (5) of R83 leaves a tag operand nothing to raise. -/
theorem tagOfCode_ne_none_of_wellFormed {imm : Imm} (hwf : i.wellFormed s.cfg = true)
    (himm : i.immLegal = legalTagImm imm) : tagOfCode imm.val ≠ none := by
  have hlegal : legalTagImm imm = true := himm ▸ (Bool.and_eq_true_iff.1 hwf).2
  simp only [legalTagImm, Bool.or_eq_true, beq_iff_eq, or_assoc] at hlegal
  rcases hlegal with h | h | h <;> rw [h] <;> nofun

/-- Each check that a legal command makes raises a code that it may raise, and what it writes before
it ends OK is not STATUS. Three commands choose between two ends by a slot or by a layer. -/
theorem exec_endsIn_legalEnd (hwf : i.wellFormed s.cfg = true) :
    EndsIn (exec i s) (LegalEnd i.mnemonic s) := by
  cases i
  case hdrInit hd tag =>
    have htag := tagOfCode_ne_none_of_wellFormed (imm := tag) hwf rfl
    simp [exec, execHdrInit, hwf, htag]
  case hdrUnwrap hs tag =>
    have htag := tagOfCode_ne_none_of_wellFormed (imm := tag) hwf rfl
    simp [exec, execHdrUnwrap, hwf, htag, Instr.mnemonic, MayRaise, raisedBy, StatusCode.num]
  case qInit qd tag =>
    have htag := tagOfCode_ne_none_of_wellFormed (imm := tag) hwf rfl
    simp [exec, execQInit, hwf, htag]
  case faSet hs =>
    simp [exec, execFaSet, hwf, apply_ite State.status, Instr.mnemonic, MayRaise, raisedBy,
      StatusCode.num]
  case faBuild =>
    cases h : s.l2 <;>
      simp [exec, execFaBuild, hwf, h, Instr.mnemonic, MayRaise, raisedBy, StatusCode.num]
  case qMatchfa qs =>
    simp only [exec, execQMatchfa, State.command_legal hwf, endsIn_withQ]
    refine ⟨fun p _ => ?_, fun _ => ?_⟩
    · cases s.slot (layerOf p.tag) <;>
        simp [Instr.mnemonic, MayRaise, raisedBy, StatusCode.num]
    · simp [Instr.mnemonic, MayRaise, raisedBy, StatusCode.num]
  all_goals
    simp [exec, execNop, execBfNew, execBfBits, execBfVal, execBfEq, execFbClr, execFbAppb,
      execFbAppf, execFbSlb, execFbSly, execFbTob, execHdrSet, execHdrGet, execHdrTag,
      execHdrCopy, execEthCreate, execEthParse, execArpCreate, execArpParse, execIp4Create,
      execIp4Parse, execFaNew, execFaGet, execFaParse, execFaRead, execQSet, execQAny, execQMatch,
      hwf, Instr.mnemonic, MayRaise, raisedBy, StatusCode.num]

/-- Everything that a command can end in: the decode checks come first (R242). -/
theorem exec_next (h : exec i s = .next t) :
    (i.wellFormed s.cfg = false ∧ t = s.withStatus .illegalCommand) ∨
      (i.wellFormed s.cfg = true ∧ LegalEnd i.mnemonic s t) := by
  cases hwf : i.wellFormed s.cfg with
  | false => exact .inl ⟨rfl, State.raise_next ((exec_illegal hwf).symm.trans h)⟩
  | true => exact .inr ⟨rfl, (exec_endsIn_legalEnd hwf).of_next h⟩

theorem exec_err (h : exec i s = .next t) :
    t.status.getLsbD 8 = (s.status.getLsbD 8 || decide (t.status.toNat % 256 ≠ 0)) := by
  obtain ⟨-, rfl⟩ | ⟨-, hend⟩ := exec_next h
  · rw [code_withStatus]
    exact err_withStatus s .illegalCommand
  · exact hend.err

/-! ### What clears ERR: of an access that finds ERR = 1, ERR stays 1 or the access is listed -/

section
variable {a : HostAccess} {r : HostReg} {v : Word}

theorem State.runCommand_keeps_err (h : s.runCommand v = .next t)
    (hs : s.status.getLsbD 8 = true) : t.status.getLsbD 8 = true := by
  cases hd : decode v with
  | error e =>
    rw [State.raise_next ((State.runCommand_error hd).symm.trans h), err_withStatus, hs,
      Bool.true_or]
  | ok i => rw [exec_err ((State.runCommand_ok hd).symm.trans h), hs, Bool.true_or]

/-- The register writes that clear ERR (R24, R26). -/
theorem State.writeReg_keeps_or_clears_err (h : s.writeReg r v = .next t)
    (hs : s.status.getLsbD 8 = true) :
    t.status.getLsbD 8 = true ∨ (r = .status ∧ v.getLsbD 8 = true) ∨
      (r = .ctrl ∧ v.getLsbD 0 = true) := by
  rcases State.writeReg_next h with ⟨hr, rfl⟩ | ⟨hr, rfl⟩ | ⟨-, h⟩ | ⟨-, rfl⟩ | ⟨-, rfl⟩ |
    ⟨-, rfl⟩ | ⟨-, rfl⟩ | ⟨-, rfl⟩
  case inl =>
    split
    · next hv => exact .inr (.inr ⟨hr, hv⟩)
    · exact .inl hs
  case inr.inl =>
    rw [State.setStatus_status, getLsbD_statusHostWrite, hs]
    cases hv : v.getLsbD 8 with
    | false => exact .inl rfl
    | true => exact .inr (.inl ⟨hr, rfl⟩)
  case inr.inr.inl => exact .inl (State.runCommand_keeps_err h hs)
  all_goals exact .inl hs

/-- The host accesses that clear ERR (R24, R26, R270). -/
theorem State.hostAccess_keeps_or_clears_err (h : s.hostAccess a = .next t)
    (hs : s.status.getLsbD 8 = true) :
    t.status.getLsbD 8 = true ∨ (∃ v, a = .write .b64 0x008 v ∧ v.getLsbD 8 = true) ∨
      (∃ v, a = .write .b64 0x000 v ∧ v.getLsbD 0 = true) ∨ a = .hardwareReset := by
  cases a with
  | read size off =>
    rcases State.hostRead_next h with ⟨_, -, -, rfl⟩ | ⟨_, -, -, rfl⟩ <;> exact .inl hs
  | write size off v =>
    rcases State.hostWrite_next h with ⟨r, hr, rfl, hwrite⟩ | ⟨_, -, -, rfl⟩
    · obtain rfl := hostTarget_reg hr
      rcases State.writeReg_keeps_or_clears_err hwrite hs with ht | ⟨rfl, hv⟩ | ⟨rfl, hv⟩
      · exact .inl ht
      · exact .inr (.inl ⟨v, rfl, hv⟩)
      · exact .inr (.inr (.inl ⟨v, rfl, hv⟩))
    · exact .inl hs
  | hardwareReset => exact .inr (.inr (.inr rfl))

end

end

/-! ### The rules -/

/-- Settles O20: an illegal command raises at once, a legal one ends OK or as one of its checks; and
FA.BUILD by what it makes of the slots. -/
theorem errorsWriteOnlyStatus : Obligations.ErrorsWriteOnlyStatus := by
  constructor
  · intro i s t h hcode
    obtain ⟨-, rfl⟩ | ⟨-, hend⟩ := exec_next h
    · rfl
    · exact (hend.code.resolve_left hcode).2
  · intro s x hlegacy hl2 hl3
    refine ⟨s.afterBuild (.ok []), ?_, code_afterBuild_ok s [], rfl⟩
    rw [exec_faBuild, builtFrame_of_legacy hl3 hl2 hlegacy]

/-- Settles O21: a command only ever sets ERR, so the access that clears it is no CMD write. -/
theorem errBitIsSticky : Obligations.ErrBitIsSticky := by
  refine ⟨fun _ _ _ => exec_err, fun s t h hs ht => ?_⟩
  have hclear : ¬ t.status.getLsbD 8 = true := Bool.eq_false_iff.1 ht
  obtain ⟨-, rfl⟩ | ⟨a, rest, hp, h⟩ := step_next h
  · exact absurd hs hclear
  · rw [hp]
    rcases (State.hostAccess_keeps_or_clears_err h hs).resolve_left hclear with
      ⟨v, rfl, hv⟩ | ⟨v, rfl, hv⟩ | rfl
    · exact .inl ⟨v, rest, rfl, hv⟩
    · exact .inr (.inl ⟨v, rest, rfl, hv⟩)
    · exact .inr (.inr ⟨rest, rfl⟩)

/-- Settles O22: an illegal command ends with 0x10, and no row of a legal command's codes has it. -/
theorem codesComeOnlyFromTheirCommands : Obligations.CodesComeOnlyFromTheirCommands := by
  intro i s t h
  obtain ⟨hwf, rfl⟩ | ⟨hwf, hend⟩ := exec_next h
  · rw [code_withStatus]
    exact ⟨.inr (.inl rfl), ⟨fun _ => hwf, fun _ => rfl⟩, nofun⟩
  · rw [hwf]
    obtain hok | ⟨⟨hrow, hunwrap⟩, -⟩ := hend.code
    · rw [hok]
      exact ⟨.inl rfl, ⟨nofun, nofun⟩, nofun⟩
    · refine ⟨.inr (.inr hrow), ⟨fun hcode => ?_, nofun⟩, hunwrap⟩
      rw [hcode] at hrow
      nomatch hrow

end Sys2Proof.Machine
end

section
/-! PROOFS. Every command ends (70_reset_and_hazards.md R279; 60_exceptions.md R246), and what the two
resets leave (R270 to R272). -/

namespace Sys2Proof.Machine

/-! ### The end of a command -/

theorem EndsIn.imp {r : StepResult} {P Q : State → Prop} (hPQ : ∀ t, P t → Q t)
    (h : EndsIn r P) : EndsIn r Q := by
  obtain ⟨t, ht, hP⟩ := h
  exact ⟨t, ht, hPQ t hP⟩

/-- Every command ends, and it leaves the host's later accesses as they are (R45). -/
theorem exec_endsIn_pending_eq (i : Instr) (s : State) :
    EndsIn (exec i s) fun t => t.pending = s.pending := by
  refine (exec_endsIn_writesOnly i s).imp fun t hwrites => ?_
  obtain ⟨-, -, -, -, -, -, hpending, -⟩ := hwrites.kept
  exact hpending

section
variable {s : State} {v : Word} {rest : List HostAccess}

/-- A word without an instruction ends too, with IllegalCommand (R86). -/
theorem State.runCommand_endsIn_pending_eq (s : State) (w : Word) :
    EndsIn (s.runCommand w) fun t => t.pending = s.pending := by
  cases hd : decode w with
  | error e =>
    rw [State.runCommand_error hd, endsIn_raise]
    exact State.withStatus_pending s .illegalCommand
  | ok i =>
    rw [State.runCommand_ok hd]
    exact exec_endsIn_pending_eq i s

/-! ### The resets as steps -/

theorem step_ctrl_set (h : s.pending = .write .b64 0x000 v :: rest) (hv : v.getLsbD 0 = true) :
    step s = .next (s.setPending rest).softReset :=
  (step_writeReg (r := .ctrl) h).trans (congrArg Host.Outcome.next (if_pos hv))

theorem step_ctrl_clear (h : s.pending = .write .b64 0x000 v :: rest) (hv : v.getLsbD 0 = false) :
    step s = .next (s.setPending rest) :=
  (step_writeReg (r := .ctrl) h).trans (congrArg Host.Outcome.next (if_neg (ne_true_of_eq_false hv)))

theorem step_hardwareReset (h : s.pending = .hardwareReset :: rest) :
    step s = .next (s.setPending rest).hardReset := step_pending h

end

theorem Config.default_valid : Config.default.valid := by decide

/-! ### The rules -/

/-- Settles O19: no check stops a command, and a CMD write ends whether its word decodes or not. -/
theorem everyCommandEnds : Obligations.EveryCommandEnds := by
  constructor
  · intro i s
    obtain ⟨t, ht, -⟩ := exec_endsIn_pending_eq i s
    exact ⟨t, ht⟩
  · intro s w rest hp
    obtain ⟨t, ht, hpending⟩ := ((s.setPending rest).setCmd w).runCommand_endsIn_pending_eq w
    exact ⟨t, (step_writeReg (r := .cmd) hp).trans ht, hpending⟩

/-- Settles O16: bit 0 of the word written to CTRL decides between a soft reset and nothing. -/
theorem softResetClearsEverythingButMemory : Obligations.SoftResetClearsEverythingButMemory :=
  fun s _ _ hp => ⟨fun hv => ⟨s.draws, s.rdata, step_ctrl_set hp hv⟩, step_ctrl_clear hp⟩

/-- Settles O17: the step is one hardware reset, and the reset state is that of the defaults. -/
theorem hardwareResetGivesTheResetValues : Obligations.HardwareResetGivesTheResetValues :=
  ⟨fun s _ hp => ⟨s.draws, s.rdata, step_hardwareReset hp⟩, 0, [], 0, rfl⟩

/-- Settles O25: the defaults of R6 are in the ranges of R6. -/
theorem resetStateHasTheInvariant : Obligations.ResetStateHasTheInvariant :=
  ⟨.resetWith Config.default_valid, fun _ => .resetWith⟩

end Sys2Proof.Machine
end
